-- ==== Sys2Proof/Word.lean ====
section
/-! DEFINITION. The word types of the block: bytes move on the data path (R11), the `mode` argument is 16
bits and the `baud` argument and the `BAUD` register are 32 bits (R11, R24). Bit `i` has weight 2^i (R12). -/

namespace Sys2Proof

/-- A byte of the data path (R11, R14). -/
abbrev Byte := BitVec 8

/-- The frame-format word `mode` (R11). -/
abbrev Half := BitVec 16

/-- A divisor, a baud rate, a clock in hertz (R11, R24). -/
abbrev Word := BitVec 32

/-- One scheduled operation with its operands. DESIGN CHOICE (log 2), safe: the spec gives operands as values. -/
abbrev OpWord := BitVec 72

end Sys2Proof
end

