-- ==== Sys2Proof/Syntax.lean ====
section
/-! DEFINITION. The operations of the block (R101) and the five data formats of the opcode table, one
constructor per row. -/

namespace Sys2Proof

/-- One row of spec/opcode_table.json, with its operands as values (R101). -/
inductive Instr where
  /-- Operation 0 (R270). -/
  | reset
  /-- Operation 1 (R120). -/
  | selectBaud (clock baud : Word)
  /-- Operation 2 (R140). -/
  | encodeFrame (mode : Half)
  /-- Operation 3 (R160). -/
  | configure (divisor : Word) (doubleSpeed : Bool) (frameFormat : Half) (enableRx enableTx : Bool)
  /-- Operation 4 (R167). -/
  | init (baud : Word) (mode : Half)
  /-- Operation 5 (R171). -/
  | hostDisable
  /-- Operation 6 (R180). -/
  | hostEnqueue (b : Byte)
  /-- Operation 7 (R181). -/
  | txkick
  /-- Operation 8 (R214). -/
  | hostDequeue
  /-- Operation 9, interrupt source 0 (R212). -/
  | isrRxc
  /-- Operation 10, interrupt source 1 (R185). -/
  | isrUdre
  /-- Operation 11, interrupt source 2 (R183). -/
  | isrTxc
  /-- Operation 12 (R186). -/
  | pump
  /-- Operation 13 (R188). -/
  | hwTxDone
  /-- Operation 14; the environment draws `b` (R210). -/
  | hwRxFrame (b : Byte)
  /-- Data format `MODE`, pattern `mmxxzyyscpprtxxx` (R95). -/
  | mode (w : Half)
  /-- Data format `IMG_A`, pattern `000000d0` (R97). -/
  | imgA (d : Bool)
  /-- Data format `IMG_B0`, pattern `00000z00` (R98). -/
  | imgB0 (z : Bool)
  /-- Data format `IMG_B1`, pattern `rttrtz00` (R98). -/
  | imgB1 (r t z : Bool)
  /-- Data format `IMG_C`, pattern `mmppsyyc` (R99). -/
  | imgC (m p : BitVec 2) (sb : Bool) (y : BitVec 2) (c : Bool)
deriving DecidableEq, Repr

/-- The three interrupt sources (R102, R236). -/
inductive Source where
  /-- Receive-complete, index 0. -/
  | rxc
  /-- Data-register-empty, index 1. -/
  | udre
  /-- Transmit-complete, index 2. -/
  | txc
deriving DecidableEq, Repr

/-- Who takes a step (R18). -/
inductive Agent where
  | host
  | irq
  | hw
  | env
  /-- The pure functions and data formats: no agent's step, no state of the block read or written. -/
  | pure
deriving DecidableEq, Repr

end Sys2Proof
end

