-- ==== Sys2Proof/Config.lean ====
section
/-! DEFINITION. What an implementation fixes (the parameters of R10) and the free values (R172, U7). The
parameters are plain data that `State` carries and no step changes, so that a claim holds for every value
of them (log 8). -/

namespace Sys2Proof

/-- The parameters of the block (R10, D9, D17). -/
structure Params where
  /-- `CLOCK_HZ`, the peripheral clock in hertz. -/
  clockHz : Word
  /-- `TXCAP`, the capacity of the transmit queue. -/
  txCap : Nat
  /-- `RXCAP`, the capacity of the receive queue. -/
  rxCap : Nat
  /-- `BASE`, the address of the register block. -/
  base : Nat
  /-- `IRQ_ORDER`: none (any order), or the sources from first to last (R240). -/
  irqOrder : Option (List Source)
deriving DecidableEq, Repr

/-- What the environment draws at one disable write: which latched bytes are lost (R172). -/
structure LossDraw where
  loseTsr : Bool
  loseTxb : Bool
  loseRxb : Bool
deriving DecidableEq, Repr, Inhabited

namespace Config

/-- The parameters `State.reset` carries. DESIGN CHOICE (log 8), unsafe for a claim that used them: the spec
leaves all four numbers open; these are the values its test vectors use. No statement rests on them. -/
def params : Params :=
  { clockHz := 16000000#32, txCap := 8, rxCap := 8, base := 0, irqOrder := none }

/-- FREE VALUE (R172, U7): the environment's draw at the `n`-th disable write for which the state lists none.
It has no body, so nothing can be proved about its value (log 9), safe. -/
opaque freeLoss : Nat → LossDraw

end Config

/-- A total order lists each source once (R10, R240). -/
def irqOrderWf : Option (List Source) → Bool
  | none => true
  | some o => o.Nodup && o.contains .rxc && o.contains .udre && o.contains .txc

/-- The ranges R10 gives the parameters. -/
def Params.wf (p : Params) : Bool :=
  decide (1 ≤ p.txCap) && decide (1 ≤ p.rxCap) && irqOrderWf p.irqOrder

end Sys2Proof
end

