-- ==== Sys2Proof/WellFormed.lean ====
section
/-! DEFINITION. Which operations have operands in the ranges the spec gives them. Every operand type has the
width of the spec, so the one range left to check is the divisor of `CONFIGURE` (R160: 1 to 2^29). The
machine does not check it: `CONFIGURE` writes any divisor it is given (R163; log 23). -/

namespace Sys2Proof

/-- The divisors `CONFIGURE` is specified for (R160). -/
def divisorInRange (d : Word) : Bool :=
  decide (1 ≤ d.toNat) && decide (d.toNat ≤ 2 ^ 29)

/-- The operands are in the ranges the spec gives. -/
def Instr.wf : Instr → Bool
  | .reset => true
  | .selectBaud _ _ => true
  | .encodeFrame _ => true
  | .configure d _ _ _ _ => divisorInRange d
  | .init _ _ => true
  | .hostDisable => true
  | .hostEnqueue _ => true
  | .txkick => true
  | .hostDequeue => true
  | .isrRxc => true
  | .isrUdre => true
  | .isrTxc => true
  | .pump => true
  | .hwTxDone => true
  | .hwRxFrame _ => true
  | .mode _ => true
  | .imgA _ => true
  | .imgB0 _ => true
  | .imgB1 _ _ _ => true
  | .imgC _ _ _ _ _ => true

end Sys2Proof
end

