-- ==== Sys2Proof/Decode.lean ====
section
/-! DEFINITION. Operation words: the selector of R101 in bits 3:0 under mask 0xF, operands above it. The spec
gives operands no bits, so their places are the model's (log 2, DESIGN CHOICE, safe):

* bits 7:4: the three flags of `CONFIGURE`, or, under the unused selector 15, the number of a data format;
* bits 39:8 and up: the operand values, first operand lowest.

For an operation every bit that is no operand is ignored, as the table's mask 0xF says. -/

namespace Sys2Proof

/-- Why an operation word has no meaning. -/
inductive DecodeError where
  /-- Selector 15 (R101: unused) with a number that is no data format. -/
  | unusedSelector
  /-- A data format whose pattern has a 0 where the word has a 1 (R97, R98). -/
  | imageBits
deriving DecidableEq, Repr

/-- The selector number of a row (R101); 15, unused by the spec, for a data format. -/
def Instr.selector : Instr → BitVec 4
  | .reset => 0#4
  | .selectBaud _ _ => 1#4
  | .encodeFrame _ => 2#4
  | .configure _ _ _ _ _ => 3#4
  | .init _ _ => 4#4
  | .hostDisable => 5#4
  | .hostEnqueue _ => 6#4
  | .txkick => 7#4
  | .hostDequeue => 8#4
  | .isrRxc => 9#4
  | .isrUdre => 10#4
  | .isrTxc => 11#4
  | .pump => 12#4
  | .hwTxDone => 13#4
  | .hwRxFrame _ => 14#4
  | .mode _ => 15#4
  | .imgA _ => 15#4
  | .imgB0 _ => 15#4
  | .imgB1 _ _ _ => 15#4
  | .imgC _ _ _ _ _ => 15#4

/-- The data formats, by the number in bits 7:4 (log 2). The pattern strings are those of R95 and R97 to R99,
bit 8 of the word being bit 0 of the pattern. -/
def decodeFormat (w : OpWord) : Except DecodeError Instr :=
  match (w.extractLsb' 4 4).toNat with
  | 0 => .ok (.mode (w.extractLsb' 8 16))
  | 1 => if w.extractLsb' 8 8 &&& 0xFD#8 = 0#8 then .ok (.imgA (w.getLsbD 9)) else .error .imageBits
  | 2 => if w.extractLsb' 8 8 &&& 0xFB#8 = 0#8 then .ok (.imgB0 (w.getLsbD 10)) else .error .imageBits
  | 3 =>
    if w.extractLsb' 8 2 = 0#2 && w.getLsbD 12 == w.getLsbD 15 && w.getLsbD 13 == w.getLsbD 14
        && w.getLsbD 11 == w.getLsbD 14 then
      .ok (.imgB1 (w.getLsbD 15) (w.getLsbD 14) (w.getLsbD 10))
    else .error .imageBits
  | 4 => .ok (.imgC (w.extractLsb' 14 2) (w.extractLsb' 12 2) (w.getLsbD 11) (w.extractLsb' 9 2) (w.getLsbD 8))
  | _ => .error .unusedSelector

/-- The operation a word stands for (R101). -/
def decode (w : OpWord) : Except DecodeError Instr :=
  match (w.extractLsb' 0 4).toNat with
  | 0 => .ok .reset
  | 1 => .ok (.selectBaud (w.extractLsb' 8 32) (w.extractLsb' 40 32))
  | 2 => .ok (.encodeFrame (w.extractLsb' 8 16))
  | 3 =>
    .ok (.configure (w.extractLsb' 8 32) (w.getLsbD 4) (w.extractLsb' 40 16) (w.getLsbD 5) (w.getLsbD 6))
  | 4 => .ok (.init (w.extractLsb' 8 32) (w.extractLsb' 40 16))
  | 5 => .ok .hostDisable
  | 6 => .ok (.hostEnqueue (w.extractLsb' 8 8))
  | 7 => .ok .txkick
  | 8 => .ok .hostDequeue
  | 9 => .ok .isrRxc
  | 10 => .ok .isrUdre
  | 11 => .ok .isrTxc
  | 12 => .ok .pump
  | 13 => .ok .hwTxDone
  | 14 => .ok (.hwRxFrame (w.extractLsb' 8 8))
  | _ => decodeFormat w

/-- `{hi, lo}` of R12 for one bit. -/
def bit (b : Bool) : BitVec 1 := BitVec.ofBool b

/-- The word of an operation: operands from the most significant down to the selector. -/
def encode (i : Instr) : OpWord :=
  match i with
  | .selectBaud clock baud => baud ++ clock ++ 0#4 ++ i.selector
  | .encodeFrame mode => 0#48 ++ mode ++ 0#4 ++ i.selector
  | .configure d ds ff rx tx => 0#16 ++ ff ++ d ++ 0#1 ++ bit tx ++ bit rx ++ bit ds ++ i.selector
  | .init baud mode => 0#16 ++ mode ++ baud ++ 0#4 ++ i.selector
  | .hostEnqueue b => 0#56 ++ b ++ 0#4 ++ i.selector
  | .hwRxFrame b => 0#56 ++ b ++ 0#4 ++ i.selector
  | .mode w => 0#48 ++ w ++ 0#4 ++ i.selector
  | .imgA d => 0#62 ++ bit d ++ 0#1 ++ 1#4 ++ i.selector
  | .imgB0 z => 0#61 ++ bit z ++ 0#2 ++ 2#4 ++ i.selector
  | .imgB1 r t z =>
    0#56 ++ bit r ++ bit t ++ bit t ++ bit r ++ bit t ++ bit z ++ 0#2 ++ 3#4 ++ i.selector
  | .imgC m p sb y c => 0#56 ++ m ++ p ++ bit sb ++ y ++ bit c ++ 4#4 ++ i.selector
  | .reset => 0#68 ++ i.selector
  | .hostDisable => 0#68 ++ i.selector
  | .txkick => 0#68 ++ i.selector
  | .hostDequeue => 0#68 ++ i.selector
  | .isrRxc => 0#68 ++ i.selector
  | .isrUdre => 0#68 ++ i.selector
  | .isrTxc => 0#68 ++ i.selector
  | .pump => 0#68 ++ i.selector
  | .hwTxDone => 0#68 ++ i.selector

/-- The operation word with the low `nbits` bits of `w` and every bit above them 0. -/
def tableWord (nbits w : Nat) : OpWord := BitVec.ofNat 72 (w % 2 ^ nbits)

/-- What the decoder reads from an instruction of `nbits` bits numbered as spec/opcode_table.json numbers
them. -/
def decodeTableWord (nbits w : Nat) : Option Instr :=
  (decode (tableWord nbits w)).toOption

end Sys2Proof
end

