-- ==== Sys2Proof/Machine/State.lean ====
section
/-! DEFINITION. All the state the spec gives the block (10_state.md), the block's parameters (R10), and the
model's own fields: the last step's result, the environment's draws and the agenda. Plain data throughout. -/

namespace Sys2Proof
namespace Machine

/-- A copy of the format and rate registers, taken when a byte is absorbed (R27). -/
structure Fmt where
  ctrlC : Byte
  csz2 : Bool
  u2x : Bool
  baud : Word
deriving DecidableEq, Repr

/-- What the shift register holds (R27). -/
structure TxFrame where
  byte : Byte
  fmt : Fmt
  garbled : Bool
deriving DecidableEq, Repr

/-- An entry of the ghost log `tx_line` (R38). -/
inductive LineFrame where
  | frame (byte : Byte) (fmt : Fmt)
  | garbled
deriving DecidableEq, Repr

/-- The driver's phase (R34). -/
inductive Phase where
  | uninitialized
  | configuring
  | operational
deriving DecidableEq, Repr

/-- The steps of `CONFIGURE`, in order (R160). -/
inductive ConfStep where
  | c1 | c2 | c3 | c4 | c5 | c6 | c7
deriving DecidableEq, Repr

/-- What a configuration in progress carries: the images' sources, computed before its first write (R41, R167). -/
structure Cfg where
  divisor : Word
  doubleSpeed : Bool
  imgC : Byte
  sz2 : Bool
  enableRx : Bool
  enableTx : Bool
deriving DecidableEq, Repr

/-- The position of the host inside a multi-step operation; the step named is the one still to take (R41).
`configure` is `CONFIGURE` called alone (DEDUCED, log 11, safe: R41 names the position inside `INIT` only). -/
inductive HostProgress where
  | init (k : ConfStep) (cfg : Cfg)
  | configure (k : ConfStep) (cfg : Cfg)
  | enqueue2
deriving DecidableEq, Repr

/-- The handler that runs and its position (R41). -/
inductive IsrProgress where
  | txc1
  | txc2 (r : Option Byte)
  | udre1
  | udre2 (r : Option Byte)
  | rxc1
  | rxc2 (b : Byte)
deriving DecidableEq, Repr

/-- The five device registers (R20). -/
inductive Reg where
  | ctrlA
  | ctrlB
  | ctrlC
  | data
  | baud
deriving DecidableEq, Repr

/-- The fields of a `mode` word (R91, R93); `size3` is `{mode[11], mode[10:9]}` (R95). -/
structure ModeFields where
  msel : BitVec 2
  size3 : BitVec 3
  sbs : Bool
  cpol : Bool
  pm : BitVec 2
  rxen : Bool
  txen : Bool
deriving DecidableEq, Repr

/-- What the last step returned (the result column of R101). The MODEL's own (log 6). -/
inductive OpResult where
  /-- The step returns nothing. -/
  | none
  /-- The operation has further steps to take. -/
  | pending
  /-- The guard of the step was false: the step did not happen (log 4). -/
  | blocked
  /-- `Ok`, code 0 for `INIT` (R103). -/
  | ok
  /-- The error of `INIT`, code 1 (R103, R231). -/
  | unachievableBaud
  /-- `Err(Full)` of the transmit queue (R232). -/
  | queueFull
  /-- `Ok(divisor, double_speed)` of the selector (R120). -/
  | baudOk (divisor : Word) (doubleSpeed : Bool)
  /-- `Err(Unachievable)` of the selector (R120): the error of `INIT` under its other name, code 1 (R103, R230). -/
  | unachievable
  /-- The encoder's result (R140). -/
  | frame (imgC : Byte) (sz2 enableRx enableTx : Bool)
  /-- What `HOST_DEQUEUE` returns (R214). -/
  | popped (r : Option Byte)
  /-- The value of a `MODE` row (log 5). -/
  | modeFields (f : ModeFields)
  /-- The value of an image row and the register it is for (log 5). -/
  | image (r : Reg) (v : Byte)
deriving DecidableEq, Repr

/-- The faults of the spec (R234). They are recorded in `State.fault` by the step that raises them and the run
goes on (R39; log 7): no step answers `Outcome.fault`. Unsafe for a claim without the premise that the set is
empty, since the spec does not specify the state after a fault further. -/
inductive Fault where
  /-- Raised by the `DATA` write that finds `txb` full (R187, U1). Recorded, so safe under the premise
  `fault = {}` that every claim of the spec takes (R39). -/
  | txOverrun
  /-- Raised by `HW_RX_FRAME` when `rxb` is full (R210, U2). Recorded; safe as above. -/
  | rxOverrun
deriving DecidableEq, Repr

/-- A subset of the two faults (R39). -/
structure FaultSet where
  txOverrun : Bool
  rxOverrun : Bool
deriving DecidableEq, Repr

/-- Why a step has no meaning. All are safe: the model stops. -/
inductive Refusal where
  /-- Raised by `exec` alone, for an operation that has no meaning yet. Safe. -/
  | notModelled (mnemonic : String)
  /-- Raised by `step` when the scheduled word is no row of the table (R101: value 15 is unused). Safe. -/
  | undecoded (e : DecodeError)
  /-- Raised by a `DATA` read with `rxb` empty (R213, U3: refuse). No reachable state does it. Safe. -/
  | dataReadEmpty
  /-- Raised by a `DATA` write with `TXEN = 0` (U4: refuse). No reachable state does it. Safe. -/
  | dataWriteDisabled
  /-- Raised by a bus access of a wrong width or address (R65, U8: refuse). No operation makes one. Safe. -/
  | badAccess
deriving DecidableEq, Repr

/-- The state of the block. -/
structure State where
  /-- `CTRLA.U2X` (R21). -/
  u2x : Bool
  /-- `CTRLA.TXC`: flag and transmit-complete request (R32). -/
  txc : Bool
  /-- `CTRLB` (R22). -/
  ctrlB : Byte
  /-- `CTRLC` (R23). -/
  ctrlC : Byte
  /-- `BAUD` (R24). -/
  baud : Word
  /-- The holding register (R26). -/
  txb : Option Byte
  /-- The shift register (R27). -/
  tsr : Option TxFrame
  /-- The input data register (R28). -/
  rxb : Option Byte
  /-- The data-register-empty request (R33). -/
  udreReq : Bool
  /-- The driver's phase (R34). -/
  phase : Phase
  /-- The TX-kick handler is registered (R35). -/
  hook : Bool
  /-- The host's position (R41). -/
  host : Option HostProgress
  /-- The handler's position (R41). -/
  isr : Option IsrProgress
  /-- The transmit queue, oldest byte first (R37). -/
  txq : List Byte
  /-- The receive queue, oldest byte first (R37). -/
  rxq : List Byte
  /-- Ghost: every byte written to `DATA` (R38). -/
  txWritten : List Byte
  /-- Ghost: every frame that completed on the line (R38). -/
  txLine : List LineFrame
  /-- Ghost: received bytes dropped on a full queue (R38). -/
  rxDropped : Nat
  /-- The sticky fault set (R39). -/
  fault : FaultSet
  /-- The block's parameters (R10); no step changes them. -/
  params : Params
  /-- MODEL's own: what the last step returned (log 6). -/
  result : OpResult
  /-- MODEL's own, free value: the environment's next draws (log 9). -/
  draws : List LossDraw
  /-- MODEL's own: how many draws came from `Config.freeLoss` (log 9). -/
  drawCount : Nat
  /-- MODEL's own: the operations still to take, oldest first (log 1). -/
  agenda : List OpWord
deriving DecidableEq, Repr

/-- The state after reset (R44, `CleanStart` of R293). DESIGN CHOICE, unsafe for a claim that used them: the
parameters (log 8), the empty queues (log 16), and the model's own last four fields (logs 1, 6, 9). -/
def State.reset : State :=
  { u2x := false, txc := false, ctrlB := 0x00#8, ctrlC := 0x00#8, baud := 0#32
    txb := none, tsr := none, rxb := none, udreReq := false
    phase := .uninitialized, hook := false, host := none, isr := none
    txq := [], rxq := [], txWritten := [], txLine := [], rxDropped := 0
    fault := { txOverrun := false, rxOverrun := false }
    params := Config.params
    result := .none, draws := [], drawCount := 0, agenda := [] }

end Machine
end Sys2Proof
end

