-- ==== Sys2Proof/Machine/Operands.lean ====
section
/-! DEFINITION. The operand forms: the fields of a `mode` word (R91 to R95), the frame-format encoder (R140),
the register images (R97 to R99), who takes an operation's steps (R18, R101). -/

namespace Sys2Proof
namespace Machine

/-- The position of `USART_MODE_RXEN` in `mode` (R93). -/
def modeRxenBit : Nat := 4

/-- The position of `USART_MODE_TXEN` in `mode` (R93). -/
def modeTxenBit : Nat := 3

/-- The fields of a `mode` word (R91); bits 13, 12, 2, 1, 0 are in none (R94). -/
def modeFieldsOf (mode : Half) : ModeFields :=
  { msel := mode.extractLsb' 14 2
    size3 := bit (mode.getLsbD 11) ++ mode.extractLsb' 9 2
    sbs := mode.getLsbD 8
    cpol := mode.getLsbD 7
    pm := mode.extractLsb' 5 2
    rxen := mode.getLsbD modeRxenBit
    txen := mode.getLsbD modeTxenBit }

/-- The image for `CTRLC` from its fields: `{m_msel, m_pm, m_sbs, m_sz10, m_cpol}` (R99). -/
def imgCOf (msel pm : BitVec 2) (sbs : Bool) (sz10 : BitVec 2) (cpol : Bool) : Byte :=
  msel ++ pm ++ bit sbs ++ sz10 ++ bit cpol

/-- What `ENCODE_FRAME` returns (R140). -/
structure Encoded where
  imgC : Byte
  sz2 : Bool
  enableRx : Bool
  enableTx : Bool
deriving DecidableEq, Repr

/-- `ENCODE_FRAME` (R140 to R144). -/
def encodeFrame (mode : Half) : Encoded :=
  { imgC := imgCOf (mode.extractLsb' 14 2) (mode.extractLsb' 5 2) (mode.getLsbD 8) (mode.extractLsb' 9 2)
      (mode.getLsbD 7)
    sz2 := mode.getLsbD 11
    enableRx := mode.getLsbD modeRxenBit
    enableTx := mode.getLsbD modeTxenBit }

/-- `IMG_A`, the value for `CTRLA` (R97). -/
def imgAOf (ds : Bool) : Byte := 0#6 ++ bit ds ++ 0#1

/-- `IMG_B0`, the format-only value for `CTRLB` (R98). -/
def imgB0Of (sz2 : Bool) : Byte := 0#5 ++ bit sz2 ++ 0#2

/-- `IMG_B1`, the enable value for `CTRLB`: `{rx, tx, tx, rx, tx, sz2, 0, 0}` (R98). -/
def imgB1Of (rx tx sz2 : Bool) : Byte :=
  bit rx ++ bit tx ++ bit tx ++ bit rx ++ bit tx ++ bit sz2 ++ 0#2

/-- The configuration `CONFIGURE` computes from its arguments before step C1 (R160). -/
def cfgOf (divisor : Word) (ds : Bool) (frameFormat : Half) (rx tx : Bool) : Cfg :=
  { divisor := divisor, doubleSpeed := ds
    imgC := (encodeFrame frameFormat).imgC, sz2 := (encodeFrame frameFormat).sz2
    enableRx := rx, enableTx := tx }

/-- The configuration step after `k`, none after the last (R160). -/
def nextConfStep : ConfStep → Option ConfStep
  | .c1 => some .c2
  | .c2 => some .c3
  | .c3 => some .c4
  | .c4 => some .c5
  | .c5 => some .c6
  | .c6 => some .c7
  | .c7 => none

/-- Who takes an operation's steps (R18, R101). -/
def agentOf : Instr → Agent
  | .reset => .env
  | .selectBaud _ _ => .pure
  | .encodeFrame _ => .pure
  | .configure _ _ _ _ _ => .host
  | .init _ _ => .host
  | .hostDisable => .host
  | .hostEnqueue _ => .host
  | .txkick => .host
  | .hostDequeue => .host
  | .isrRxc => .irq
  | .isrUdre => .irq
  | .isrTxc => .irq
  | .pump => .irq
  | .hwTxDone => .hw
  | .hwRxFrame _ => .hw
  | .mode _ => .pure
  | .imgA _ => .pure
  | .imgB0 _ => .pure
  | .imgB1 _ _ _ => .pure
  | .imgC _ _ _ _ _ => .pure

/-- The index of a source (R102). It carries no priority (R240). -/
def sourceIndex : Source → Nat
  | .rxc => 0
  | .udre => 1
  | .txc => 2

/-- The number of a result (R103, R230): 1 for the error of `INIT` and of `SELECT_BAUD`, which is one error under two
names. -/
def resultCode : OpResult → Option Nat
  | .ok => some 0
  | .unachievableBaud => some 1
  | .unachievable => some 1
  | .none => none
  | .pending => none
  | .blocked => none
  | .queueFull => none
  | .baudOk _ _ => none
  | .frame _ _ _ _ => none
  | .popped _ => none
  | .modeFields _ => none
  | .image _ _ => none

end Machine
end Sys2Proof
end

