-- ==== Sys2Proof/Machine/Flags.lean ====
section
/-! DEFINITION. Every flag of the block (R42): the derived status flags (R29), the fields of the control
registers (R21 to R23), the interrupt requests and enables (R236), and when a handler may be entered (R237,
R240). -/

namespace Sys2Proof
namespace Machine

/-- `RXC`, also the receive-complete request: 1 exactly when `rxb` is `some` (R29, R30). -/
def State.rxc (s : State) : Bool := s.rxb.isSome

/-- `UDRE`: 1 exactly when `txb` is `none` (R29). -/
def State.udre (s : State) : Bool := s.txb.isNone

/-- `CTRLB.RXCIE` (R22). -/
def State.rxcie (s : State) : Bool := s.ctrlB.getLsbD 7

/-- `CTRLB.TXCIE` (R22). -/
def State.txcie (s : State) : Bool := s.ctrlB.getLsbD 6

/-- `CTRLB.UDRIE` (R22). -/
def State.udrie (s : State) : Bool := s.ctrlB.getLsbD 5

/-- `CTRLB.RXEN` (R22). -/
def State.rxen (s : State) : Bool := s.ctrlB.getLsbD 4

/-- `CTRLB.TXEN` (R22). -/
def State.txen (s : State) : Bool := s.ctrlB.getLsbD 3

/-- `CTRLB.CSZ2` (R22). -/
def State.csz2 (s : State) : Bool := s.ctrlB.getLsbD 2

/-- What a read of `CTRLA` returns: `{RXC, txc, UDRE, 0, 0, 0, u2x, 0}` (R21). -/
def State.ctrlA (s : State) : Byte :=
  bit s.rxc ++ bit s.txc ++ bit s.udre ++ 0#3 ++ bit s.u2x ++ 0#1

/-- The format and rate registers as they stand (R27). -/
def State.fmt (s : State) : Fmt :=
  { ctrlC := s.ctrlC, csz2 := s.csz2, u2x := s.u2x, baud := s.baud }

/-- The 3-bit character size `{CSZ2, CSZ}` of a format (R95, R148). -/
def fmtSize3 (f : Fmt) : BitVec 3 := bit f.csz2 ++ f.ctrlC.extractLsb' 1 2

/-- The number of data bits of a size field; none for the reserved values 4 to 6 (R96). -/
def sizeBits (size3 : BitVec 3) : Option Nat :=
  if size3.toNat ≤ 3 then some (5 + size3.toNat) else if size3.toNat = 7 then some 9 else none

/-- The bytes the line may deliver under a character size: below 2^n for n below 8 (R149, R210). -/
def deliverable (size3 : BitVec 3) (b : Byte) : Bool :=
  match sizeBits size3 with
  | some n => decide (b.toNat < 2 ^ n)
  | none => true

/-- The request of a source (R236): `RXC` is a level, the two others are latches. -/
def State.request (s : State) : Source → Bool
  | .rxc => s.rxc
  | .udre => s.udreReq
  | .txc => s.txc

/-- The enable bit of a source (R236). -/
def State.enable (s : State) : Source → Bool
  | .rxc => s.rxcie
  | .udre => s.udrie
  | .txc => s.txcie

/-- Some source that `IRQ_ORDER` puts before `src` is pending and enabled (R240; log 19). Never, when the
order is free. -/
def State.outranked (s : State) (src : Source) : Bool :=
  match s.params.irqOrder with
  | none => false
  | some o =>
    [Source.rxc, Source.udre, Source.txc].any fun k =>
      s.request k && s.enable k && decide (o.idxOf k < o.idxOf src)

/-- The entry step of a handler is enabled (R237): request, enable bit, no handler running. -/
def State.entryEnabled (s : State) (src : Source) : Bool :=
  s.isr.isNone && s.request src && s.enable src && !s.outranked src

end Machine
end Sys2Proof
end

