-- ==== Sys2Proof/Machine/Ops.lean ====
section
/-! DEFINITION. The shared operations: returning a result, the queue contract (R74 to R76), the register
accesses with their side effects (R21 to R25, R66), the bus form (R65), loss and garbling (R172, R173), taking
an interrupt and returning from one (R241, R242), fetching the next scheduled operation (log 1). -/

namespace Sys2Proof
namespace Machine

/-! ## Results -/

/-- The state with the step's result in place (log 6). -/
def State.ret (s : State) (r : OpResult) : State := { s with result := r }

/-- A step that happened. -/
def done (s : State) (r : OpResult) : Host.Outcome State Fault Refusal := .next (s.ret r)

/-- A step whose guard is false does not happen: nothing of the block changes. DESIGN CHOICE (log 4), safe. -/
def blocked (s : State) : Host.Outcome State Fault Refusal := done s .blocked

/-! ## The queue contract -/

/-- `try_pop` (R74): the byte returned and the queue left. -/
def tryPop (q : List Byte) : Option Byte × List Byte :=
  match q with
  | [] => (none, [])
  | b :: rest => (some b, rest)

/-- `try_push` on a queue of capacity `cap` (R75): the queue left, or none for `Err(Full)`. -/
def tryPush (cap : Nat) (q : List Byte) (b : Byte) : Option (List Byte) :=
  if q.length < cap then some (q ++ [b]) else none

/-! ## Faults -/

/-- Record a fault in the sticky set (R39). -/
def recordFault (f : Fault) (s : State) : State :=
  match f with
  | .txOverrun => { s with fault := { s.fault with txOverrun := true } }
  | .rxOverrun => { s with fault := { s.fault with rxOverrun := true } }

/-! ## The shift register -/

/-- A byte is absorbed into the shift register under the current format, and the data-register-empty request
is raised (R187, R188). -/
def absorb (b : Byte) (s : State) : State :=
  { s with tsr := some { byte := b, fmt := s.fmt, garbled := false }, udreReq := true }

/-- If a stored format or rate value changed, the frame in the shift register is garbled (R173). -/
def garble (changed : Bool) (s : State) : State :=
  if changed then { s with tsr := s.tsr.map fun fr => { fr with garbled := true } } else s

/-! ## Control register writes -/

/-- `Reg[CTRLA] <- v` (R21): `U2X` is stored, a 1 in bit 6 sets `txc`, everything else is ignored. -/
def writeCtrlA (v : Byte) (s : State) : State :=
  garble (v.getLsbD 1 != s.u2x) { s with u2x := v.getLsbD 1, txc := s.txc || v.getLsbD 6 }

/-- `Reg[CTRLC] <- v` (R23). -/
def writeCtrlC (v : Byte) (s : State) : State :=
  garble (v != s.ctrlC) { s with ctrlC := v }

/-- `Reg[BAUD] <- v` (R24, R163). -/
def writeBaud (v : Word) (s : State) : State :=
  garble (v != s.baud) { s with baud := v }

/-- The environment's draw at a disable write (R172): the state's next one, else a free value (log 9). -/
def takeDraw (s : State) : LossDraw × State :=
  match s.draws with
  | d :: rest => (d, { s with draws := rest })
  | [] => (Config.freeLoss s.drawCount, { s with drawCount := s.drawCount + 1 })

/-- A byte left in the holding register above an empty shift register is absorbed (R172). -/
def absorbWaiting (s : State) : State :=
  match s.tsr, s.txb with
  | none, some b => absorb b { s with txb := none }
  | _, _ => s

/-- `TXEN` goes from 1 to 0: the drawn latches are emptied, then what waits is absorbed (R172). -/
def loseTx (d : LossDraw) (s : State) : State :=
  absorbWaiting
    { s with tsr := s.tsr.filter fun _ => !d.loseTsr, txb := s.txb.filter fun _ => !d.loseTxb }

/-- `RXEN` goes from 1 to 0: the input register may be emptied (R172). -/
def loseRx (d : LossDraw) (s : State) : State :=
  { s with rxb := s.rxb.filter fun _ => !d.loseRxb }

/-- The losses of a write that turns the transmitter off (`txOff`) or the receiver off (`rxOff`) (R172). -/
def disableLoss (txOff rxOff : Bool) (s : State) : State :=
  if txOff || rxOff then
    let (d, s) := takeDraw s
    let s := if txOff then loseTx d s else s
    if rxOff then loseRx d s else s
  else s

/-- `Reg[CTRLB] <- v` (R22): bits 1:0 are not stored. The value is stored first, a frame in the shift
register is garbled if `CSZ2` changed (R173), then the losses of R172 follow (DEDUCED, log 10, unsafe: the spec
gives the two effects of one write no order). -/
def writeCtrlB (v : Byte) (s : State) : State :=
  disableLoss (s.txen && !v.getLsbD 3) (s.rxen && !v.getLsbD 4)
    (garble (v.getLsbD 2 != s.csz2) { s with ctrlB := v &&& 0xFC#8 })

/-! ## The data register -/

/-- `Reg[DATA] <- b` (R187). With `TXEN = 0` the access is refused (U4; log 14). -/
def dataWrite (b : Byte) (s : State) : Except Refusal State :=
  if s.txen then
    let s := { s with txWritten := s.txWritten ++ [b], udreReq := false }
    match s.txb, s.tsr with
    | some _, _ => .ok (recordFault .txOverrun s)
    | none, none => .ok (absorb b s)
    | none, some _ => .ok { s with txb := some b }
  else .error .dataWriteDisabled

/-- `Reg[DATA]` read (R213): the byte and the state with `rxb` emptied. With `rxb` empty the access is refused
(U3; log 14). -/
def dataRead (s : State) : Except Refusal (Byte × State) :=
  match s.rxb with
  | some b => .ok (b, { s with rxb := none })
  | none => .error .dataReadEmpty

/-! ## Named and bus access (R15, R65) -/

/-- `Reg[r] <- v`; an 8-bit register takes the low byte. -/
def regWrite (r : Reg) (v : Word) (s : State) : Except Refusal State :=
  match r with
  | .ctrlA => .ok (writeCtrlA (v.setWidth 8) s)
  | .ctrlB => .ok (writeCtrlB (v.setWidth 8) s)
  | .ctrlC => .ok (writeCtrlC (v.setWidth 8) s)
  | .data => dataWrite (v.setWidth 8) s
  | .baud => .ok (writeBaud v s)

/-- `Reg[r]`: the value read and the state after the read. Only a `DATA` read has a side effect (R66). -/
def regRead (r : Reg) (s : State) : Except Refusal (Word × State) :=
  match r with
  | .ctrlA => .ok (s.ctrlA.setWidth 32, s)
  | .ctrlB => .ok (s.ctrlB.setWidth 32, s)
  | .ctrlC => .ok (s.ctrlC.setWidth 32, s)
  | .data => (dataRead s).map fun p => (p.1.setWidth 32, p.2)
  | .baud => .ok (s.baud, s)

/-- The register an access of `n` bytes at `addr` reaches (R60, R65); none for every other access. -/
def regAt (base addr n : Nat) : Option Reg :=
  if addr = base ∧ n = 1 then some .ctrlA
  else if addr = base + 1 ∧ n = 1 then some .ctrlB
  else if addr = base + 2 ∧ n = 1 then some .ctrlC
  else if addr = base + 3 ∧ n = 1 then some .data
  else if addr = base + 4 ∧ n = 4 then some .baud
  else none

/-- `MemWrite(addr, n, v)` (R65, U8). -/
def memWrite (addr n : Nat) (v : Word) (s : State) : Except Refusal State :=
  match regAt s.params.base addr n with
  | some r => regWrite r v s
  | none => .error .badAccess

/-- `MemRead(addr, n)` (R65, U8). -/
def memRead (addr n : Nat) (s : State) : Except Refusal (Word × State) :=
  match regAt s.params.base addr n with
  | some r => regRead r s
  | none => .error .badAccess

/-! ## Interrupts -/

/-- Taking an interrupt (R241): lower the request if it is a latch, and set `isr` to the handler's first
position, which masks all three sources. Nothing is saved; `host` is kept. -/
def takeInterrupt (src : Source) (s : State) : State :=
  match src with
  | .rxc => { s with isr := some .rxc1 }
  | .udre => { s with udreReq := false, isr := some .udre1 }
  | .txc => { s with txc := false, isr := some .txc1 }

/-- Returning from a handler (R242): `isr <- none`, which unmasks the sources. Nothing is restored. -/
def returnInterrupt (s : State) : State := { s with isr := none }

/-- The entry step of a handler, if it is enabled (R237). -/
def enterHandler (src : Source) (s : State) : Host.Outcome State Fault Refusal :=
  if s.entryEnabled src then done (takeInterrupt src s) .none else blocked s

/-- The state is in main context (R244). -/
def State.inMain (s : State) : Bool := s.isr.isNone

/-! ## The schedule -/

/-- The next scheduled operation word and the state without it (log 1). -/
def fetch (s : State) : Option (OpWord × State) :=
  match s.agenda with
  | [] => none
  | w :: rest => some (w, { s with agenda := rest })

end Machine
end Sys2Proof
end

