-- ==== Sys2Proof/Machine/Baud.lean ====
section
/-! DEFINITION. The baud-rate prescaler selector (40_baud_select.md), on mathematical integers (R128). -/

namespace Sys2Proof
namespace Machine

/-- `(num + den/2) / den` (R13). -/
def roundHalfUp (num den : Nat) : Nat := (num + den / 2) / den

/-- The rounded divisor for prescaler factor `f` (R121). -/
def roundedDivisor (f clock baud : Nat) : Nat := roundHalfUp clock (f * baud)

/-- The distance of `f * baud * d` from the clock: `|clock - f*baud*d|` (R125). -/
def rateResidual (f clock baud d : Nat) : Nat := ((clock : Int) - (f * baud * d : Nat)).natAbs

/-- `E16` (R125): the error of the factor-16 candidate, scaled by `16 * d16 * d8`. -/
def error16 (clock baud d16 d8 : Nat) : Nat := d8 * rateResidual 16 clock baud d16

/-- `E8` (R125): the error of the factor-8 candidate under the same scale. -/
def error8 (clock baud d16 d8 : Nat) : Nat := 2 * d16 * rateResidual 8 clock baud d8

/-- `SELECT_BAUD` (R120): the divisor and whether factor 8 won, or none for `Err(Unachievable)`. -/
def selectBaud (clock baud : Nat) : Option (Nat × Bool) :=
  if baud = 0 then none
  else
    let d16 := roundedDivisor 16 clock baud
    let d8 := roundedDivisor 8 clock baud
    if d16 = 0 ∧ d8 = 0 then none
    else if d16 = 0 then some (d8, true)
    else if d8 = 0 then some (d16, false)
    else if error16 clock baud d16 d8 > error8 clock baud d16 d8 then some (d8, true)
    else some (d16, false)

/-- The selector's result as the caller sees it; a divisor fits 32 bits (R129 (f)). -/
def selectResult (r : Option (Nat × Bool)) : OpResult :=
  match r with
  | some (d, ds) => .baudOk (BitVec.ofNat 32 d) ds
  | none => .unachievable

/-- `SELECT_BAUD` as an operation: a pure function, no state of the block is read or written (R120). -/
def execSelectBaud (clock baud : Word) (s : State) : Host.Outcome State Fault Refusal :=
  done s (selectResult (selectBaud clock.toNat baud.toNat))

end Machine
end Sys2Proof
end

