-- ==== Sys2Proof/Machine/Configure.lean ====
section
/-! DEFINITION. The host operations that write the control registers (42_configure_init.md). One execution of
`CONFIGURE` or `INIT` takes ONE atomic step of it, the one at which the host stands (R16, R41; log 3); the
operands count in the first step only, since the position carries the computed images. -/

namespace Sys2Proof
namespace Machine

/-- The effect of one configuration step (R160 to R166). -/
def confEffect (k : ConfStep) (cfg : Cfg) (s : State) : State :=
  match k with
  | .c1 => writeCtrlB 0x00#8 s
  | .c2 => writeCtrlC cfg.imgC s
  | .c3 => writeCtrlB (imgB0Of cfg.sz2) s
  | .c4 => writeBaud cfg.divisor s
  | .c5 => writeCtrlA (imgAOf cfg.doubleSpeed) s
  | .c6 => writeCtrlB (imgB1Of cfg.enableRx cfg.enableTx cfg.sz2) s
  | .c7 => { s with hook := true }

/-- Step `k` of a `CONFIGURE` that was called alone (R160). It does not write `phase` (R34; log 11). -/
def configureStep (k : ConfStep) (cfg : Cfg) (s : State) : Host.Outcome State Fault Refusal :=
  match nextConfStep k with
  | some k' => done { confEffect k cfg s with host := some (.configure k' cfg) } .pending
  | none => done { confEffect k cfg s with host := none } .none

/-- `CONFIGURE` (R160): step C1 from main context with no host operation in progress, later steps from its
own position. -/
def execConfigure (divisor : Word) (doubleSpeed : Bool) (frameFormat : Half) (enableRx enableTx : Bool)
    (s : State) : Host.Outcome State Fault Refusal :=
  if s.inMain then
    match s.host with
    | none => configureStep .c1 (cfgOf divisor doubleSpeed frameFormat enableRx enableTx) s
    | some (.configure k cfg) => configureStep k cfg s
    | some (.init _ _) => blocked s
    | some .enqueue2 => blocked s
  else blocked s

/-- Step I0 of `INIT` (R167): select, encode, enter `Configuring`; on failure nothing changes (R169). -/
def initStart (baud : Word) (mode : Half) (s : State) : Host.Outcome State Fault Refusal :=
  match selectBaud s.params.clockHz.toNat baud.toNat with
  | none => done s .unachievableBaud
  | some (d, ds) =>
    let e := encodeFrame mode
    let cfg := cfgOf (BitVec.ofNat 32 d) ds mode e.enableRx e.enableTx
    done { s with phase := .configuring, host := some (.init .c1 cfg) } .pending

/-- Step `k` of the `CONFIGURE` inside `INIT`; the last one also enters `Operational` and returns `Ok`
(R167, R168). -/
def initStep (k : ConfStep) (cfg : Cfg) (s : State) : Host.Outcome State Fault Refusal :=
  match nextConfStep k with
  | some k' => done { confEffect k cfg s with host := some (.init k' cfg) } .pending
  | none => done { confEffect k cfg s with host := none, phase := .operational } .ok

/-- `INIT` (R167). -/
def execInit (baud : Word) (mode : Half) (s : State) : Host.Outcome State Fault Refusal :=
  if s.inMain then
    match s.host with
    | none => initStart baud mode s
    | some (.init k cfg) => initStep k cfg s
    | some (.configure _ _) => blocked s
    | some .enqueue2 => blocked s
  else blocked s

/-- `HOST_DISABLE` (R171): one write that clears every enable. `phase` and `hook` stay. -/
def execHostDisable (s : State) : Host.Outcome State Fault Refusal :=
  if s.inMain && s.host.isNone then done (writeCtrlB 0x00#8 s) .none else blocked s

end Machine
end Sys2Proof
end

