-- ==== Sys2Proof/Machine/Receive.lean ====
section
/-! DEFINITION. The receive path (44_receive.md). One execution takes ONE atomic step (log 3). -/

namespace Sys2Proof
namespace Machine

/-- `HW_RX_FRAME` (R210): a byte arrives while the receiver is on; on a full input register it is the fault
`RxOverrun`, which keeps the first byte. A byte the character size cannot carry is no draw of the
environment (R149; log 15). -/
def execHwRxFrame (b : Byte) (s : State) : Host.Outcome State Fault Refusal :=
  if s.rxen && deliverable (fmtSize3 s.fmt) b then
    match s.rxb with
    | some _ => done (recordFault .rxOverrun s) .none
    | none => done { s with rxb := some b } .none
  else blocked s

/-- Step X1 (R212): read the input register, which lowers the request. -/
def rxcRead (s : State) : Host.Outcome State Fault Refusal :=
  match dataRead s with
  | .ok (b, s') => done { s' with isr := some (.rxc2 b) } .none
  | .error e => .refused e

/-- Step X2 (R212): push; a full queue drops the byte silently (R215); return. -/
def rxcPush (b : Byte) (s : State) : Host.Outcome State Fault Refusal :=
  match tryPush s.params.rxCap s.rxq b with
  | some q => done (returnInterrupt { s with rxq := q }) .none
  | none => done (returnInterrupt { s with rxDropped := s.rxDropped + 1 }) .none

/-- `ISR_RXC` (R211, R212). -/
def execIsrRxc (s : State) : Host.Outcome State Fault Refusal :=
  match s.isr with
  | none => enterHandler .rxc s
  | some .rxc1 => rxcRead s
  | some (.rxc2 b) => rxcPush b s
  | some .txc1 => blocked s
  | some (.txc2 _) => blocked s
  | some .udre1 => blocked s
  | some (.udre2 _) => blocked s

/-- `HOST_DEQUEUE` (R214). -/
def execHostDequeue (s : State) : Host.Outcome State Fault Refusal :=
  if s.inMain && s.host.isNone then
    let (r, q) := tryPop s.rxq
    done { s with rxq := q } (.popped r)
  else blocked s

end Machine
end Sys2Proof
end

