-- ==== Sys2Proof/Machine/System.lean ====
section
/-! DEFINITION. `RESET` (70_reset_and_hazards.md). -/

namespace Sys2Proof
namespace Machine

/-- Every element of R44 at its reset value; `txq`, `rxq` and `fault` are left as they are (R270). The
parameters, the environment's draws and the agenda are not the block's and stay (log 24). -/
def resetBlock (s : State) : State :=
  { s with
    u2x := false, txc := false, ctrlB := 0x00#8, ctrlC := 0x00#8, baud := 0#32
    txb := none, tsr := none, rxb := none, udreReq := false
    phase := .uninitialized, hook := false, host := none, isr := none
    txWritten := [], txLine := [], rxDropped := 0 }

/-- `RESET` (R270): enabled in every state. -/
def execReset (s : State) : Host.Outcome State Fault Refusal := done (resetBlock s) .none

end Machine
end Sys2Proof
end

