-- ==== Sys2Proof/Machine/Frame.lean ====
section
/-! DEFINITION. The frame-format encoder as an operation, the data-format rows, and the line frame
(41_frame_encode.md). -/

namespace Sys2Proof
namespace Machine

/-- `ENCODE_FRAME` as an operation: a pure function (R140). -/
def execEncodeFrame (mode : Half) (s : State) : Host.Outcome State Fault Refusal :=
  let e := encodeFrame mode
  done s (.frame e.imgC e.sz2 e.enableRx e.enableTx)

/-- A `MODE` row: a data format, no operation of the block (R95). Its value is reported and nothing of the
block changes. DESIGN CHOICE (log 5), safe; so for the four image rows. -/
def execMode (w : Half) (s : State) : Host.Outcome State Fault Refusal :=
  done s (.modeFields (modeFieldsOf w))

/-- An `IMG_A` row (R97). -/
def execImgA (d : Bool) (s : State) : Host.Outcome State Fault Refusal :=
  done s (.image .ctrlA (imgAOf d))

/-- An `IMG_B0` row (R98). -/
def execImgB0 (z : Bool) (s : State) : Host.Outcome State Fault Refusal :=
  done s (.image .ctrlB (imgB0Of z))

/-- An `IMG_B1` row (R98). -/
def execImgB1 (r t z : Bool) (s : State) : Host.Outcome State Fault Refusal :=
  done s (.image .ctrlB (imgB1Of r t z))

/-- An `IMG_C` row (R99). -/
def execImgC (m p : BitVec 2) (sb : Bool) (y : BitVec 2) (c : Bool) (s : State) :
    Host.Outcome State Fault Refusal :=
  done s (.image .ctrlC (imgCOf m p sb y c))

/-- The fields of a format that `LINE_FRAME` reads (R148). -/
def fmtMsel (f : Fmt) : BitVec 2 := f.ctrlC.extractLsb' 6 2

/-- The parity field of a format. -/
def fmtPm (f : Fmt) : BitVec 2 := f.ctrlC.extractLsb' 4 2

/-- The stop-bit field of a format. -/
def fmtSbs (f : Fmt) : Bool := f.ctrlC.getLsbD 3

/-- The clock polarity of a format. -/
def fmtCpol (f : Fmt) : Bool := f.ctrlC.getLsbD 0

/-- The data bits sent, least significant first: the low `n` bits of the byte, a ninth bit being 0 (R149). -/
def dataBits (n : Nat) (b : Byte) : List Bool := (List.range n).map fun i => b.getLsbD i

/-- The level at which the line idles between frames (R105). PRESUMED (log 22). -/
def idleLevel : Bool := true

/-- The exclusive or of a list of bits. -/
def parityOf (bits : List Bool) : Bool := bits.foldr xor false

/-- The parity part of a frame (R148): none, even or odd; no meaning for the reserved value 1. -/
def parityBits (pm : BitVec 2) (data : List Bool) : Option (List Bool) :=
  match pm.toNat with
  | 0 => some []
  | 2 => some [parityOf data]
  | 3 => some [!parityOf data]
  | _ => none

/-- `LINE_FRAME` (R148): the bits on the line, first bit first; none where the frame is unspecified (R150).
PRESUMED (log 22), unsafe: the spec marks levels, order and field values as general knowledge. -/
def lineFrame (f : Fmt) (b : Byte) : Option (List Bool) :=
  if fmtMsel f ≠ 0#2 ∨ fmtCpol f = true then none
  else
    match sizeBits (fmtSize3 f) with
    | none => none
    | some n =>
      (parityBits (fmtPm f) (dataBits n b)).map fun par =>
        [false] ++ dataBits n b ++ par ++ (if fmtSbs f then [true, true] else [true])

/-- The level of the line while no frame is on it (R105). While one is, the level depends on time, which the block
does not have (R300): none. -/
def State.restingLevel (s : State) : Option Bool := if s.tsr.isNone then some idleLevel else none

/-- What the log `tx_line` records for a frame that completes (R188, R150, R173). -/
def lineRecord (fr : TxFrame) : LineFrame :=
  if fr.garbled || (lineFrame fr.fmt fr.byte).isNone then .garbled else .frame fr.byte fr.fmt

end Machine
end Sys2Proof
end

