-- ==== Sys2Proof/Machine/Transmit.lean ====
section
/-! DEFINITION. The transmit path (43_transmit.md). One execution takes ONE atomic step (log 3). -/

namespace Sys2Proof
namespace Machine

/-- The atomic set-bit of the hook: `Reg[CTRLA] <- Reg[CTRLA] | 0x40` (R181, R67). -/
def kick (s : State) : State := writeCtrlA (s.ctrlA ||| 0x40#8) s

/-- Step E1 (R180): push; on `Ok` the new-item event is delivered as a step of its own if the hook is
registered (R76). -/
def enqueuePush (b : Byte) (s : State) : Host.Outcome State Fault Refusal :=
  match tryPush s.params.txCap s.txq b with
  | none => done s .queueFull
  | some q =>
    if s.hook then done { s with txq := q, host := some .enqueue2 } .pending
    else done { s with txq := q } .ok

/-- Step E2 (R180): the kick, and the push returns `Ok`. -/
def enqueueKick (s : State) : Host.Outcome State Fault Refusal :=
  done { kick s with host := none } .ok

/-- `HOST_ENQUEUE` (R180). -/
def execHostEnqueue (b : Byte) (s : State) : Host.Outcome State Fault Refusal :=
  if s.inMain then
    match s.host with
    | none => enqueuePush b s
    | some .enqueue2 => enqueueKick s
    | some (.init _ _) => blocked s
    | some (.configure _ _) => blocked s
  else blocked s

/-- `TXKICK` (R181): one step in the context of the pusher, so it is step E2 of a push in progress (log 13) and
happens nowhere else: the host calls it within `HOST_ENQUEUE` only (R18, R190; log 12). -/
def execTxkick (s : State) : Host.Outcome State Fault Refusal :=
  if s.inMain then
    match s.host with
    | some .enqueue2 => enqueueKick s
    | none => blocked s
    | some (.init _ _) => blocked s
    | some (.configure _ _) => blocked s
  else blocked s

/-- Step P1 (R186): the atomic pop, and the position that keeps what it returned. -/
def pumpPop (position : Option Byte → IsrProgress) (s : State) : Host.Outcome State Fault Refusal :=
  let (r, q) := tryPop s.txq
  done { s with txq := q, isr := some (position r) } .none

/-- Step P2 (R186): write the popped byte, if there is one, and return from the handler. -/
def pumpWrite (r : Option Byte) (s : State) : Host.Outcome State Fault Refusal :=
  match r with
  | none => done (returnInterrupt s) .none
  | some b =>
    match dataWrite b s with
    | .ok s' => done (returnInterrupt s') .none
    | .error e => .refused e

/-- The pump, shared by both transmit handlers (R186). -/
def pumpStep (s : State) : Host.Outcome State Fault Refusal :=
  match s.isr with
  | some .txc1 => pumpPop .txc2 s
  | some .udre1 => pumpPop .udre2 s
  | some (.txc2 r) => pumpWrite r s
  | some (.udre2 r) => pumpWrite r s
  | some .rxc1 => blocked s
  | some (.rxc2 _) => blocked s
  | none => blocked s

/-- `PUMP` (R186). -/
def execPump (s : State) : Host.Outcome State Fault Refusal := pumpStep s

/-- `ISR_TXC` (R182, R183): entry, then the pump. -/
def execIsrTxc (s : State) : Host.Outcome State Fault Refusal :=
  match s.isr with
  | none => enterHandler .txc s
  | some .txc1 => pumpStep s
  | some (.txc2 _) => pumpStep s
  | some .udre1 => blocked s
  | some (.udre2 _) => blocked s
  | some .rxc1 => blocked s
  | some (.rxc2 _) => blocked s

/-- `ISR_UDRE` (R184, R185): entry, then the pump. -/
def execIsrUdre (s : State) : Host.Outcome State Fault Refusal :=
  match s.isr with
  | none => enterHandler .udre s
  | some .udre1 => pumpStep s
  | some (.udre2 _) => pumpStep s
  | some .txc1 => blocked s
  | some (.txc2 _) => blocked s
  | some .rxc1 => blocked s
  | some (.rxc2 _) => blocked s

/-- The shift register hands over at the end of a frame (R188): the waiting byte is absorbed, or the line goes
idle and `txc` is set. -/
def shiftOut (s : State) : State :=
  match s.txb with
  | some b => absorb b { s with txb := none }
  | none => { s with tsr := none, txc := true }

/-- `HW_TX_DONE` (R188): the frame in the shift register completes. It does not depend on `TXEN`. -/
def execHwTxDone (s : State) : Host.Outcome State Fault Refusal :=
  match s.tsr with
  | some fr => done (shiftOut { s with txLine := s.txLine ++ [lineRecord fr] }) .none
  | none => blocked s

end Machine
end Sys2Proof
end

