-- ==== Sys2Proof/Machine/Dispatch.lean ====
section
/-! DEFINITION. One arm per row of the opcode table, each one call of its meaning. -/

namespace Sys2Proof
namespace Machine

def exec (i : Instr) (s : State) : Host.Outcome State Fault Refusal :=
  match i with
  | .reset => Sys2Proof.Machine.execReset s
  | .selectBaud clock baud => Sys2Proof.Machine.execSelectBaud clock baud s
  | .encodeFrame mode => Sys2Proof.Machine.execEncodeFrame mode s
  | .configure divisor ds ff rx tx => Sys2Proof.Machine.execConfigure divisor ds ff rx tx s
  | .init baud mode => Sys2Proof.Machine.execInit baud mode s
  | .hostDisable => Sys2Proof.Machine.execHostDisable s
  | .hostEnqueue b => Sys2Proof.Machine.execHostEnqueue b s
  | .txkick => Sys2Proof.Machine.execTxkick s
  | .hostDequeue => Sys2Proof.Machine.execHostDequeue s
  | .isrRxc => Sys2Proof.Machine.execIsrRxc s
  | .isrUdre => Sys2Proof.Machine.execIsrUdre s
  | .isrTxc => Sys2Proof.Machine.execIsrTxc s
  | .pump => Sys2Proof.Machine.execPump s
  | .hwTxDone => Sys2Proof.Machine.execHwTxDone s
  | .hwRxFrame b => Sys2Proof.Machine.execHwRxFrame b s
  | .mode w => Sys2Proof.Machine.execMode w s
  | .imgA d => Sys2Proof.Machine.execImgA d s
  | .imgB0 z => Sys2Proof.Machine.execImgB0 z s
  | .imgB1 r t z => Sys2Proof.Machine.execImgB1 r t z s
  | .imgC m p sb y c => Sys2Proof.Machine.execImgC m p sb y c s

end Machine
end Sys2Proof
end

