-- ==== Sys2Proof/Machine/Step.lean ====
section
/-! DEFINITION. One step of the machine: take the next scheduled operation (log 1). -/

namespace Sys2Proof
namespace Machine

/-- The next scheduled operation word is decoded and its operation takes one atomic step. With nothing
scheduled no agent acts and the block rests (log 1). A word that is no row of the table is refused (R101). -/
def step (s : State) : Host.Outcome State Fault Refusal :=
  match fetch s with
  | none => .next s
  | some (w, s') =>
    match decode w with
    | .ok i => exec i s'
    | .error e => .refused (.undecoded e)

/-- The state with an operation word placed first in the agenda, which is how a program is loaded (log 1). -/
def State.withFetchWord (s : State) (nbits w : Nat) : State :=
  { s with agenda := tableWord nbits w :: s.agenda }

end Machine
end Sys2Proof
end

