-- ==== Sys2Proof/Safety.lean ====
section
/-! DEFINITION. The terms claims use: the good states (R39), the invariant of reachable states (R43 and what
keeps it), the named states (R190, R293, R294), runs and their fairness (R251), and the byte streams of the
transmit and receive paths (R191, R216, R283). -/

namespace Sys2Proof
namespace Machine

/-! ## Good states -/

/-- No fault is recorded: the premise of every claim (R39). -/
def State.FaultFree (s : State) : Prop :=
  s.fault = { txOverrun := false, rxOverrun := false }

/-- A handler of the transmit path runs. -/
def inTxHandler : Option IsrProgress → Bool
  | some .txc1 => true
  | some (.txc2 _) => true
  | some .udre1 => true
  | some (.udre2 _) => true
  | some .rxc1 => false
  | some (.rxc2 _) => false
  | none => false

/-- The data-register-empty handler runs. -/
def inUdreHandler : Option IsrProgress → Bool
  | some .udre1 => true
  | some (.udre2 _) => true
  | some .txc1 => false
  | some (.txc2 _) => false
  | some .rxc1 => false
  | some (.rxc2 _) => false
  | none => false

/-- Step C1 of a configuration is taken and step C6 is not (R161, R174). -/
def betweenC1AndC6 : ConfStep → Bool
  | .c1 => false
  | .c2 => true
  | .c3 => true
  | .c4 => true
  | .c5 => true
  | .c6 => true
  | .c7 => false

/-- The host is inside a configuration whose disable step is done and whose enable step is not. -/
def hostDisabledWindow : Option HostProgress → Bool
  | some (.init k _) => betweenC1AndC6 k
  | some (.configure k _) => betweenC1AndC6 k
  | some .enqueue2 => false
  | none => false

/-- The host is inside `INIT` (R168). -/
def hostInInit : Option HostProgress → Bool
  | some (.init _ _) => true
  | some (.configure _ _) => false
  | some .enqueue2 => false
  | none => false

/-- The divisor an `INIT` in progress will write is one the selector returns (R129 (f), R160). -/
def hostDivisorOk : Option HostProgress → Bool
  | some (.init _ cfg) => divisorInRange cfg.divisor
  | some (.configure _ _) => true
  | some .enqueue2 => true
  | none => true

/-- What holds in every reachable state: R43 (i) to (iv), and what its proof rests on. -/
structure State.Inv (s : State) : Prop where
  /-- R43 (i). -/
  udre_request : s.udreReq = true → s.txb = none
  /-- R43 (ii). -/
  waits_behind : s.txb ≠ none → s.tsr ≠ none
  /-- R43 (iii). -/
  tx_enables : s.txen = s.txcie ∧ s.txcie = s.udrie
  /-- R43 (iii). -/
  rx_enables : s.rxen = s.rxcie
  /-- `CTRLB` bits 1:0 read 0 (R22). -/
  reserved_bits : s.ctrlB &&& 0x03#8 = 0#8
  /-- R43 (iv). -/
  txq_fits : s.txq.length ≤ s.params.txCap
  /-- R43 (iv). -/
  rxq_fits : s.rxq.length ≤ s.params.rxCap
  /-- A transmit handler runs only while the transmitter is on (U4). -/
  tx_handler_on : inTxHandler s.isr = true → s.txen = true
  /-- The receive handler reads a byte that is there (R213). -/
  rx_handler_byte : s.isr = some .rxc1 → s.rxb ≠ none
  /-- Nothing fills `txb` while `ISR_UDRE` runs (R185). -/
  udre_handler_room : inUdreHandler s.isr = true → s.txb = none
  /-- No handler runs and nothing is enabled between C1 and C6 (R161, R174). -/
  window_off : hostDisabledWindow s.host = true → s.isr = none ∧ s.ctrlB &&& 0xF8#8 = 0#8
  /-- `phase = Configuring` exactly while the host is inside `INIT` (R168). -/
  configuring : s.phase = .configuring ↔ hostInInit s.host = true
  /-- An operational block has its hook (R168). -/
  operational_hook : s.phase = .operational → s.hook = true
  /-- R129 (f). -/
  divisor_ok : hostDivisorOk s.host = true

/-! ## Named states -/

/-- The transmitter is idle (R190). -/
def State.TxIdle (s : State) : Prop :=
  s.txb = none ∧ s.tsr = none ∧ s.txc = false ∧ s.udreReq = false ∧ inTxHandler s.isr = false

/-- `CleanStart` (R293): the state after `RESET` with empty queues and logs. -/
def State.CleanStart (s : State) : Prop :=
  s.u2x = false ∧ s.txc = false ∧ s.ctrlB = 0#8 ∧ s.ctrlC = 0#8 ∧ s.baud = 0#32 ∧ s.txb = none ∧ s.tsr = none ∧
  s.rxb = none ∧ s.udreReq = false ∧ s.phase = .uninitialized ∧ s.hook = false ∧ s.host = none ∧ s.isr = none ∧
  s.txq = [] ∧ s.rxq = [] ∧ s.txWritten = [] ∧ s.txLine = [] ∧ s.rxDropped = 0 ∧ s.FaultFree

/-- `Enabled(baud, mode)` (R293), with `baud` one the selector accepts. -/
def State.Enabled (baud : Word) (mode : Half) (s : State) : Prop :=
  s.phase = .operational ∧ s.hook = true ∧
  (∃ d ds, selectBaud s.params.clockHz.toNat baud.toNat = some (d, ds) ∧
    s.baud = BitVec.ofNat 32 d ∧ s.u2x = ds) ∧
  s.ctrlC = (encodeFrame mode).imgC ∧
  s.ctrlB = imgB1Of (encodeFrame mode).enableRx (encodeFrame mode).enableTx (encodeFrame mode).sz2 ∧
  s.host = none ∧ s.isr = none ∧ s.txb = none ∧ s.tsr = none ∧ s.rxb = none ∧ s.txc = false ∧
  s.udreReq = false ∧ s.txq = [] ∧ s.rxq = [] ∧ s.txWritten = [] ∧ s.txLine = [] ∧ s.rxDropped = 0 ∧ s.FaultFree

/-- `Quiescent` (R294): the resting point. -/
def State.Quiescent (s : State) : Prop :=
  s.host = none ∧ s.isr = none ∧ s.txb = none ∧ s.tsr = none ∧
  ∀ src, (s.request src && s.enable src) = false

/-! ## Byte streams -/

/-- The popped byte a transmit handler has not written yet (R191). -/
def heldTx : Option IsrProgress → List Byte
  | some (.txc2 r) => r.toList
  | some (.udre2 r) => r.toList
  | some .txc1 => []
  | some .udre1 => []
  | some .rxc1 => []
  | some (.rxc2 _) => []
  | none => []

/-- The byte the receive handler has read and not pushed yet (R216). -/
def heldRx : Option IsrProgress → List Byte
  | some (.rxc2 b) => [b]
  | some .rxc1 => []
  | some .txc1 => []
  | some (.txc2 _) => []
  | some .udre1 => []
  | some (.udre2 _) => []
  | none => []

/-- Bytes written, held and queued, in order (R191): every byte successfully enqueued. -/
def State.txStream (s : State) : List Byte := s.txWritten ++ heldTx s.isr ++ s.txq

/-- Bytes received and not yet given to the application, in order (R216). -/
def State.rxStream (s : State) : List Byte := s.rxq ++ heldRx s.isr ++ s.rxb.toList

/-- The bytes in the transmitter hardware, oldest first. -/
def State.inHardware (s : State) : List Byte := (s.tsr.map TxFrame.byte).toList ++ s.txb.toList

/-- How many bytes are in `txb`, `tsr`, `txq` and the handlers together (R283). -/
def State.inFlight (s : State) : Nat := s.inHardware.length + (heldTx s.isr).length + s.txq.length

/-- A logged frame carries a byte; of a garbled one nothing is known (R173). -/
def carries : LineFrame → Byte → Prop
  | .frame b _, x => b = x
  | .garbled, _ => True

/-- The frames that completed carry, in order, the bytes written before those still in the hardware (R191). -/
def State.LineFollows (s : State) : Prop :=
  ∃ sent, s.txWritten = sent ++ s.inHardware ∧ List.Forall₂ carries s.txLine sent

/-- R194: with the hook registered and the host not between push and kick, a byte in the queue has something
that will bring the pump to it. -/
def State.DrainPending (s : State) : Prop :=
  s.hook = true → s.host ≠ some .enqueue2 → s.txq ≠ [] →
    s.txc = true ∨ s.udreReq = true ∨ s.tsr ≠ none ∨ s.isr = some .txc1 ∨ s.isr = some .udre1 ∨ heldTx s.isr ≠ []

/-! ## What a configuration step writes -/

/-- Everything a configuration step leaves alone (R160: flags written, none; R62). The registers, `hook`, `host`,
`phase`, the latches and the environment's draws are spoken of by `ConfWrites` and by the statements about loss
and garbling. -/
def ConfFrame (s t : State) : Prop :=
  t.txc = s.txc ∧ t.isr = s.isr ∧ t.txq = s.txq ∧ t.rxq = s.rxq ∧ t.txWritten = s.txWritten ∧
  t.txLine = s.txLine ∧ t.rxDropped = s.rxDropped ∧ t.fault = s.fault ∧ t.params = s.params ∧ t.agenda = s.agenda

/-- The one register, or the hook, that a configuration step writes, and the others unchanged (R160 to R166). -/
def ConfWrites (k : ConfStep) (cfg : Cfg) (s t : State) : Prop :=
  match k with
  | .c1 => t.ctrlB = 0x00#8 ∧ t.ctrlC = s.ctrlC ∧ t.baud = s.baud ∧ t.u2x = s.u2x ∧ t.hook = s.hook
  | .c2 => t.ctrlB = s.ctrlB ∧ t.ctrlC = cfg.imgC ∧ t.baud = s.baud ∧ t.u2x = s.u2x ∧ t.hook = s.hook
  | .c3 =>
    t.ctrlB = (if cfg.sz2 then 0x04#8 else 0x00#8) ∧ t.ctrlC = s.ctrlC ∧ t.baud = s.baud ∧ t.u2x = s.u2x ∧
    t.hook = s.hook
  | .c4 => t.ctrlB = s.ctrlB ∧ t.ctrlC = s.ctrlC ∧ t.baud = cfg.divisor ∧ t.u2x = s.u2x ∧ t.hook = s.hook
  | .c5 => t.ctrlB = s.ctrlB ∧ t.ctrlC = s.ctrlC ∧ t.baud = s.baud ∧ t.u2x = cfg.doubleSpeed ∧ t.hook = s.hook
  | .c6 =>
    t.ctrlB =
      (if cfg.enableRx then 0x90#8 else 0x00#8) ||| (if cfg.enableTx then 0x68#8 else 0x00#8) |||
        (if cfg.sz2 then 0x04#8 else 0x00#8) ∧
    t.ctrlC = s.ctrlC ∧ t.baud = s.baud ∧ t.u2x = s.u2x ∧ t.hook = s.hook
  | .c7 => t.ctrlB = s.ctrlB ∧ t.ctrlC = s.ctrlC ∧ t.baud = s.baud ∧ t.u2x = s.u2x ∧ t.hook = true

/-- The latches under a write that turns neither the transmitter nor the receiver off (R173): nothing moves, and a
frame in the shift register is garbled exactly when a stored format or rate value changed. -/
def LatchesKept (s t : State) : Prop :=
  t.txb = s.txb ∧ t.rxb = s.rxb ∧ t.udreReq = s.udreReq ∧ t.draws = s.draws ∧ t.drawCount = s.drawCount ∧
  t.tsr = s.tsr.map fun fr => { fr with garbled := fr.garbled || decide (t.fmt ≠ s.fmt) }

/-! ## Runs -/

/-- The steps of a schedule, one after the other, up to the first stop. -/
def runOps : List Instr → State → Host.Outcome State Fault Refusal
  | [], s => .next s
  | i :: rest, s =>
    match exec i s with
    | .next s' => runOps rest s'
    | .fault r => .fault r
    | .refused r => .refused r

/-- `σ` is the run of the infinite schedule `sched`. -/
def IsRun (sched : Nat → Instr) (σ : Nat → State) : Prop :=
  ∀ n, exec (sched n) (σ n) = .next (σ (n + 1))

/-- The operation is one that takes the running handler's next step. -/
def continuesHandler : Instr → IsrProgress → Bool
  | .isrTxc, .txc1 => true
  | .isrTxc, .txc2 _ => true
  | .isrUdre, .udre1 => true
  | .isrUdre, .udre2 _ => true
  | .pump, .txc1 => true
  | .pump, .txc2 _ => true
  | .pump, .udre1 => true
  | .pump, .udre2 _ => true
  | .isrRxc, .rxc1 => true
  | .isrRxc, .rxc2 _ => true
  | _, _ => false

/-- The operation is one that takes the next step of the host operation in progress. -/
def continuesHost : Instr → HostProgress → Bool
  | .init _ _, .init _ _ => true
  | .configure _ _ _ _ _, .configure _ _ => true
  | .hostEnqueue _, .enqueue2 => true
  | .txkick, .enqueue2 => true
  | _, _ => false

/-- The handler operation of a source (R238). -/
def handlerOf : Source → Instr
  | .rxc => .isrRxc
  | .udre => .isrUdre
  | .txc => .isrTxc

/-- Weak fairness (R251): (a) an entry step that stays enabled is taken; (b) a handler or host operation that
has started takes its next step; (c) `HW_TX_DONE` happens while `tsr` stays occupied. -/
structure WeaklyFair (sched : Nat → Instr) (σ : Nat → State) : Prop where
  entry : ∀ n src, ∃ m, n ≤ m ∧ ((σ m).entryEnabled src = false ∨ sched m = handlerOf src)
  handler : ∀ n p, (σ n).isr = some p →
    ∃ m, n ≤ m ∧ ((σ m).isr ≠ some p ∨ continuesHandler (sched m) p = true)
  host : ∀ n p, (σ n).host = some p →
    ∃ m, n ≤ m ∧ ((σ m).host ≠ some p ∨ ((σ m).isr = none ∧ continuesHost (sched m) p = true))
  shifter : ∀ n, ∃ m, n ≤ m ∧ ((σ m).tsr = none ∨ sched m = .hwTxDone)

/-- The fairness that R194 and R219 rest on: R251 with its (a) read of the source and not of the moment, so that a
source whose request and enable bit stay 1 is entered, and the runs of other handlers in between do not end its wait
(DEDUCED, log 20, unsafe). -/
structure Fair (sched : Nat → Instr) (σ : Nat → State) : Prop where
  weak : WeaklyFair sched σ
  served : ∀ n src, ∃ m, n ≤ m ∧ (((σ m).request src && (σ m).enable src) = false ∨
    (sched m = handlerOf src ∧ (σ m).entryEnabled src = true))

end Machine
end Sys2Proof
end

