-- ==== Sys2Proof/Certificates/Slice0/Obligations.lean ====
section
/-! DEFINITION. The statements for the provers. Each docstring names the rule of spec/ it formalises. Statements
about a next state speak of `exec`, which takes one atomic step of the operation named; `step` is `exec` of the
scheduled operation (`StepRunsScheduledOperation`). -/

open Sys2Proof Sys2Proof.Machine

/-! ## Encoding and the schedule -/

/-- Decoding the word of any operation gives it back, whatever its operands. The layout is the model's (log 2). -/
def Obligations.DecodeEncodeRoundTrip : Prop :=
  ∀ i : Instr, decode (encode i) = .ok i

/-- Words written out from R101's selector numbers and the pattern strings of R95 and R97 to R99 decode to the row
they stand for; operand places are the model's (log 2). -/
def Obligations.SpecWordsDecode : Prop :=
  decode 0x0#72 = .ok .reset ∧
  decode 0x1C200000F424001#72 = .ok (.selectBaud 1000000#32 115200#32) ∧
  decode 0x061802#72 = .ok (.encodeFrame 0x0618#16) ∧
  decode 0x06180000006863#72 = .ok (.configure 104#32 false 0x0618#16 true true) ∧
  decode 0x06180000258004#72 = .ok (.init 9600#32 0x0618#16) ∧
  decode 0x4106#72 = .ok (.hostEnqueue 0x41#8) ∧
  decode 0x9#72 = .ok .isrRxc ∧ decode 0xA#72 = .ok .isrUdre ∧ decode 0xB#72 = .ok .isrTxc ∧
  decode 0xC#72 = .ok .pump ∧ decode 0xD#72 = .ok .hwTxDone ∧
  decode 0x5A0E#72 = .ok (.hwRxFrame 0x5A#8) ∧
  decode 0xF83F#72 = .ok (.imgB1 true true false) ∧
  decode 0x2C4F#72 = .ok (.imgC 0#2 2#2 true 2#2 false)

/-- R101: the selector decides the operation under mask 0xF. A word whose low four bits are not 15 decodes to an
operation with that number, and the bits that are no operand do not matter. -/
def Obligations.SelectorNibbleDecidesOperation : Prop :=
  ∀ w : OpWord, w.extractLsb' 0 4 ≠ 15#4 → ∃ i, decode w = .ok i ∧ i.selector = w.extractLsb' 0 4

/-- A step runs the scheduled operation: the first word of the agenda is decoded and the rest of the agenda stays.
A word that is no row of the table is refused under its name, and with nothing scheduled the block rests. The
agenda is the model's (log 1). -/
def Obligations.StepRunsScheduledOperation : Prop :=
  ∀ s : State,
    (∀ w rest i, s.agenda = w :: rest → decode w = .ok i → step s = exec i { s with agenda := rest }) ∧
    (∀ w rest e, s.agenda = w :: rest → decode w = .error e → step s = .refused (.undecoded e)) ∧
    (s.agenda = [] → step s = .next s)

/-- A schedule placed in the agenda is run in order: as many machine steps as it has operations do what the
operations do one after the other, whatever they are. -/
def Obligations.AgendaRunsInOrder : Prop :=
  ∀ (ops : List Instr) (s : State),
    core.run ops.length { s with agenda := ops.map encode } = runOps ops { s with agenda := [] }

/-! ## The selector -/

/-- R120: `SELECT_BAUD` as the pseudocode gives it, as an operation of the machine. Nothing of the block is read or
written; `result` is the model's place for what an operation returns. -/
def Obligations.SelectBaudFollowsPseudocode : Prop :=
  ∀ (clock baud : Word) (s : State), ∃ r,
    exec (.selectBaud clock baud) s = .next { s with result := r } ∧
    ∀ c b d16 d8 : Nat, c = clock.toNat → b = baud.toNat →
      d16 = (c + 8 * b) / (16 * b) → d8 = (c + 4 * b) / (8 * b) →
      ((b = 0 ∨ (d16 = 0 ∧ d8 = 0)) → r = .unachievable) ∧
      (b ≠ 0 → d16 = 0 → d8 ≠ 0 → r = .baudOk (BitVec.ofNat 32 d8) true) ∧
      (b ≠ 0 → d16 ≠ 0 → d8 ≠ 0 →
        ((d8 : Int) * |(c : Int) - 16 * b * d16| > 2 * d16 * |(c : Int) - 8 * b * d8| →
          r = .baudOk (BitVec.ofNat 32 d8) true) ∧
        (¬ ((d8 : Int) * |(c : Int) - 16 * b * d16| > 2 * d16 * |(c : Int) - 8 * b * d8|) →
          r = .baudOk (BitVec.ofNat 32 d16) false)) ∧
      (r = .unachievable ↔ b = 0 ∨ c < 4 * b)

/-- R129: the facts (a) to (g) about the selector, for 32-bit inputs with `baud >= 1` (the spec derives them from
R120 and R121). -/
def Obligations.SelectorFacts : Prop :=
  (∀ c b : Nat, c < 2 ^ 32 → 1 ≤ b → b < 2 ^ 32 →
    let d16 := roundedDivisor 16 c b
    let d8 := roundedDivisor 8 c b
    (1 ≤ d16 ↔ 8 * b ≤ c) ∧ (1 ≤ d8 ↔ 4 * b ≤ c) ∧
    (d8 = 0 → d16 = 0) ∧
    (4 * b ≤ c → c < 8 * b → d16 = 0 ∧ d8 = 1 ∧ selectBaud c b = some (1, true)) ∧
    (selectBaud c b = none ↔ c < 4 * b) ∧
    |(c : Int) - 16 * b * d16| ≤ 8 * b ∧ |(c : Int) - 8 * b * d8| ≤ 4 * b ∧
    (1 ≤ d16 → d8 = 2 * d16 - 1 ∨ d8 = 2 * d16 ∨ d8 = 2 * d16 + 1) ∧
    d16 ≤ 2 ^ 28 ∧ d8 ≤ 2 ^ 29 ∧
    (∀ d ds, selectBaud c b = some (d, ds) → 1 ≤ d ∧ d ≤ 2 ^ 29)) ∧
  (∀ c : Nat, selectBaud c 0 = none) ∧
  roundedDivisor 16 (2 ^ 32 - 1) 1 = 2 ^ 28 ∧ roundedDivisor 8 (2 ^ 32 - 1) 1 = 2 ^ 29 ∧
  roundedDivisor 16 11 1 = 1 ∧ roundedDivisor 8 11 1 = 1 ∧
  error16 11 1 1 1 = 5 ∧ error8 11 1 1 1 = 6 ∧ selectBaud 11 1 = some (1, false)

/-- R125, R126: with both factors feasible, factor 8 is chosen exactly when the baud rate it produces is strictly
nearer the request, as rational numbers; on a tie factor 16. The metric is the spec's reading of its source
(decision D7). -/
def Obligations.SelectorPicksTheNearerRate : Prop :=
  ∀ c b : Nat, 8 * b ≤ c → 1 ≤ b →
    let d16 := roundedDivisor 16 c b
    let d8 := roundedDivisor 8 c b
    let err16 : ℚ := |(c : ℚ) / (16 * d16) - b|
    let err8 : ℚ := |(c : ℚ) / (8 * d8) - b|
    (err8 < err16 → selectBaud c b = some (d8, true)) ∧ (err16 ≤ err8 → selectBaud c b = some (d16, false))

/-! ## The encoder and the data formats -/

/-- R140: `ENCODE_FRAME` is defined for every `mode`, copies the fields bit for bit and changes nothing of the
block. -/
def Obligations.EncodeFrameFollowsPseudocode : Prop :=
  ∀ (mode : Half) (s : State), ∃ imgC : Byte,
    exec (.encodeFrame mode) s =
      .next { s with result := .frame imgC (mode.getLsbD 11) (mode.getLsbD 4) (mode.getLsbD 3) } ∧
    imgC.extractLsb' 6 2 = mode.extractLsb' 14 2 ∧ imgC.extractLsb' 4 2 = mode.extractLsb' 5 2 ∧
    imgC.getLsbD 3 = mode.getLsbD 8 ∧ imgC.extractLsb' 1 2 = mode.extractLsb' 9 2 ∧
    imgC.getLsbD 0 = mode.getLsbD 7

/-- R147: the register images give back every named bit of `mode`, and none of the ignored bits (the spec derives
it from R141, R142 and R144, whose register side is its decision D4). -/
def Obligations.ModeRecoveredFromImages : Prop :=
  ∀ mode : Half,
    let e := encodeFrame mode
    let ctrlB := imgB1Of e.enableRx e.enableTx e.sz2
    e.imgC.extractLsb' 6 2 ++ 0#2 ++ ctrlB.extractLsb' 2 1 ++ e.imgC.extractLsb' 1 2 ++ e.imgC.extractLsb' 3 1 ++
        e.imgC.extractLsb' 0 1 ++ e.imgC.extractLsb' 4 2 ++ ctrlB.extractLsb' 4 1 ++ ctrlB.extractLsb' 3 1 ++ 0#3 =
      mode &&& 0xCFF8#16 ∧
    encodeFrame (mode &&& 0xCFF8#16) = e

/-- The five data-format rows are values: each reports the value its pattern gives (R95, R97 to R99) and nothing of
the block changes. That they run at all is the model's choice (log 5). -/
def Obligations.DataFormatsAreValues : Prop :=
  (∀ (w : Half) (s : State),
    exec (.mode w) s =
      .next (s.ret (.modeFields
        { msel := w.extractLsb' 14 2, size3 := w.extractLsb' 11 1 ++ w.extractLsb' 9 2, sbs := w.getLsbD 8,
          cpol := w.getLsbD 7, pm := w.extractLsb' 5 2, rxen := w.getLsbD 4, txen := w.getLsbD 3 }))) ∧
  (∀ (d : Bool) (s : State),
    exec (.imgA d) s = .next (s.ret (.image .ctrlA (if d then 0x02#8 else 0x00#8)))) ∧
  (∀ (z : Bool) (s : State),
    exec (.imgB0 z) s = .next (s.ret (.image .ctrlB (if z then 0x04#8 else 0x00#8)))) ∧
  (∀ (r t z : Bool) (s : State),
    exec (.imgB1 r t z) s = .next (s.ret (.image .ctrlB
      ((if r then 0x90#8 else 0x00#8) ||| (if t then 0x68#8 else 0x00#8) ||| (if z then 0x04#8 else 0x00#8))))) ∧
  (∀ (m p : BitVec 2) (sb : Bool) (y : BitVec 2) (c : Bool) (s : State),
    exec (.imgC m p sb y c) s = .next (s.ret (.image .ctrlC
      (m ++ p ++ BitVec.ofBool sb ++ y ++ BitVec.ofBool c))))

/-- R148, R150, R105, R96 (the spec marks them general knowledge; log 22), with the fields of the format at their places
in `CTRLC` and `CTRLB.CSZ2`: a frame is unspecified exactly for the formats named there; otherwise it begins with the start
bit 0, goes on with 5 to 8 or 9 data bits least significant first (a ninth bit is 0), a parity bit if there is parity,
and stop bits 1, and has 7 to 13 bits. The number of ones among data and parity bits is even for `PM = 2` and odd for
`PM = 3`. With nothing in the shift register the line rests at 1. -/
def Obligations.LineFrameShape : Prop :=
  (∀ (f : Fmt) (b : Byte) (size3 pm : Nat),
    size3 = (if f.csz2 then 4 else 0) + (f.ctrlC.extractLsb' 1 2).toNat → pm = (f.ctrlC.extractLsb' 4 2).toNat →
    (lineFrame f b = none ↔
      f.ctrlC.extractLsb' 6 2 ≠ 0#2 ∨ f.ctrlC.getLsbD 0 = true ∨ pm = 1 ∨ size3 = 4 ∨ size3 = 5 ∨ size3 = 6) ∧
    (∀ bits, lineFrame f b = some bits → ∃ n par, n = (if size3 ≤ 3 then 5 + size3 else 9) ∧
      bits = [false] ++ (List.range n).map (fun i => (b.setWidth 9).getLsbD i) ++ par ++
        List.replicate (if f.ctrlC.getLsbD 3 then 2 else 1) true ∧
      par.length = (if pm = 0 then 0 else 1) ∧
      (pm ≠ 0 → ((bits.drop 1).take (n + 1)).count true % 2 = (if pm = 2 then 0 else 1)) ∧
      7 ≤ bits.length ∧ bits.length ≤ 13)) ∧
  (∀ s : State, s.restingLevel = (if s.tsr = none then some true else none))

/-! ## Configuration -/

/-- R160, R161: `CONFIGURE` called from main context with no host operation in progress takes step C1 and stands
before C2 with the images of its operands computed; later executions take the step at which the host stands. Each
step writes its one register and nothing else but the latches a disable may empty. Calling `CONFIGURE` outside
`INIT` and its position are the model's (log 11). -/
def Obligations.ConfigureTakesItsSteps : Prop :=
  ∀ (s : State) (d : Word) (ds : Bool) (ff : Half) (rx tx : Bool), s.isr = none →
    (s.host = none → ∃ t cfg,
      exec (.configure d ds ff rx tx) s = .next t ∧
      cfg = { divisor := d, doubleSpeed := ds, imgC := (encodeFrame ff).imgC, sz2 := ff.getLsbD 11,
              enableRx := rx, enableTx := tx } ∧
      t.host = some (.configure .c2 cfg) ∧ t.phase = s.phase ∧ ConfWrites .c1 cfg s t ∧ ConfFrame s t) ∧
    (∀ k cfg, s.host = some (.configure k cfg) → ∃ t,
      exec (.configure d ds ff rx tx) s = .next t ∧
      t.host = (nextConfStep k).map (fun k' => .configure k' cfg) ∧ t.phase = s.phase ∧
      ConfWrites k cfg s t ∧ ConfFrame s t)

/-- R167, R168: step I0 of `INIT`, when the selector succeeds, changes only `phase` and `host`: it enters
`Configuring` and stands before C1 with the images of the selected pair and of `mode`. -/
def Obligations.InitStartsConfiguring : Prop :=
  ∀ (s : State) (baud : Word) (mode : Half) (d : Nat) (ds : Bool),
    s.isr = none → s.host = none → selectBaud s.params.clockHz.toNat baud.toNat = some (d, ds) →
    exec (.init baud mode) s =
      .next { s with
        phase := .configuring
        host := some (.init .c1
          { divisor := BitVec.ofNat 32 d, doubleSpeed := ds, imgC := (encodeFrame mode).imgC
            sz2 := mode.getLsbD 11, enableRx := mode.getLsbD 4, enableTx := mode.getLsbD 3 })
        result := .pending }

/-- R169: a failing `INIT` returns `UnachievableBaud` and changes no state at all: registers, `phase`, `hook` and the
data path stay as they were (the spec's decision D10). R103, R230: its code is 1, under either of its names, and that of
`Ok` is 0 (the spec's decision D25). -/
def Obligations.FailingInitChangesNothing : Prop :=
  ∀ (s : State) (baud : Word) (mode : Half),
    s.isr = none → s.host = none → (baud = 0#32 ∨ s.params.clockHz.toNat < 4 * baud.toNat) →
    exec (.init baud mode) s = .next { s with result := .unachievableBaud } ∧
    resultCode .unachievableBaud = some 1 ∧ resultCode .unachievable = some 1 ∧ resultCode .ok = some 0

/-- R167, R168: each later execution of `INIT` takes the configuration step at which the host stands; step C7 also
enters `Operational` and returns `Ok` (code 0). -/
def Obligations.InitTakesItsSteps : Prop :=
  ∀ (s : State) (baud : Word) (mode : Half) (k : ConfStep) (cfg : Cfg),
    s.isr = none → s.host = some (.init k cfg) → ∃ t,
      exec (.init baud mode) s = .next t ∧
      t.host = (nextConfStep k).map (fun k' => .init k' cfg) ∧
      t.phase = (if k = .c7 then .operational else s.phase) ∧
      t.result = (if k = .c7 then .ok else .pending) ∧
      ConfWrites k cfg s t ∧ ConfFrame s t

/-- R173, R78: a configuration step, of `INIT` or of `CONFIGURE` alone, that turns neither the transmitter nor the
receiver off moves no byte, and garbles the frame in the shift register exactly when it changes a stored format or rate
value (the spec's decision D22; that an unchanged value garbles nothing is log 25). -/
def Obligations.ConfigurationGarblesOnChange : Prop :=
  ∀ (i : Instr) (s : State) (k : ConfStep) (cfg : Cfg), s.isr = none →
    ((∃ baud mode, i = .init baud mode ∧ s.host = some (.init k cfg)) ∨
      (∃ d ds ff rx tx, i = .configure d ds ff rx tx ∧ s.host = some (.configure k cfg))) →
    (k = .c1 ∨ k = .c3 ∨ k = .c6 → s.txen = false ∧ s.rxen = false) →
    ∃ t, exec i s = .next t ∧ LatchesKept s t

/-- R161, R171: step C1 of a configuration is the write of `HOST_DISABLE`: it does to every register and latch what
`HOST_DISABLE` does at that state, and moves the host on to C2. -/
def Obligations.DisableStepIsTheHostDisableWrite : Prop :=
  ∀ s u : State, s.isr = none → exec .hostDisable { s with host := none } = .next u →
    (∀ (d : Word) (ds : Bool) (ff : Half) (rx tx : Bool), s.host = none → ∃ cfg,
      exec (.configure d ds ff rx tx) s =
        .next { u with host := some (.configure .c2 cfg), result := .pending }) ∧
    (∀ (baud : Word) (mode : Half) (cfg : Cfg), s.host = some (.init .c1 cfg) →
      exec (.init baud mode) s = .next { u with host := some (.init .c2 cfg), result := .pending })

/-- R146, R167: after a successful `INIT`, run without interruption from any state in which the host is free, every
configuration register holds what its arguments give, whatever it held before; `phase = Operational`, `hook`
is set, `Ok` is returned, and `txc`, the queues, the logs and the fault set are as before. -/
def Obligations.InitOverwritesEveryConfigurationBit : Prop :=
  ∀ (s : State) (baud : Word) (mode : Half) (d : Nat) (ds : Bool),
    s.isr = none → s.host = none → selectBaud s.params.clockHz.toNat baud.toNat = some (d, ds) →
    ∃ t, runOps (List.replicate 8 (.init baud mode)) s = .next t ∧
      t.ctrlC = (encodeFrame mode).imgC ∧
      t.ctrlB = imgB1Of (mode.getLsbD 4) (mode.getLsbD 3) (mode.getLsbD 11) ∧
      t.u2x = ds ∧ t.baud = BitVec.ofNat 32 d ∧ t.phase = .operational ∧ t.hook = true ∧ t.host = none ∧
      t.result = .ok ∧ ConfFrame s t

/-- R293: from `CleanStart` a successful `INIT` and nothing else leads to `Enabled(baud, mode)`. -/
def Obligations.InitFromCleanStartIsEnabled : Prop :=
  ∀ (s : State) (baud : Word) (mode : Half),
    s.CleanStart → (selectBaud s.params.clockHz.toNat baud.toNat).isSome = true →
    ∃ t, runOps (List.replicate 8 (.init baud mode)) s = .next t ∧ t.Enabled baud mode

/-- R171, R172: `HOST_DISABLE` clears every bit of `CTRLB`; each latched byte may be lost as the environment draws, a
byte left above an empty shift register is absorbed under the format after the write, and everything else stays.
The order of garbling and loss inside the write is the model's (log 10); the draw is a free value (log 9), here any
head of the state's list. -/
def Obligations.HostDisableLosesOnlyWhatIsDrawn : Prop :=
  ∀ (s : State) (d : LossDraw) (rest : List LossDraw),
    s.isr = none → s.host = none → s.draws = d :: rest → ∃ t,
      exec .hostDisable s = .next t ∧ t.ctrlB = 0x00#8 ∧
      t.ctrlC = s.ctrlC ∧ t.baud = s.baud ∧ t.u2x = s.u2x ∧ t.hook = s.hook ∧ t.phase = s.phase ∧
      t.host = none ∧ ConfFrame s t ∧
      t.rxb = (if s.rxen = true ∧ d.loseRxb = true then none else s.rxb) ∧
      (let g := s.tsr.map fun fr => { fr with garbled := fr.garbled || s.csz2 }
       let keptTsr := if s.txen = true ∧ d.loseTsr = true then none else g
       let keptTxb := if s.txen = true ∧ d.loseTxb = true then none else s.txb
       (∀ b, s.txen = true → keptTsr = none → keptTxb = some b →
         t.tsr = some { byte := b, fmt := { s.fmt with csz2 := false }, garbled := false } ∧ t.txb = none ∧
         t.udreReq = true) ∧
       ((s.txen = false ∨ keptTsr ≠ none ∨ keptTxb = none) →
         t.tsr = keptTsr ∧ t.txb = keptTxb ∧ t.udreReq = s.udreReq))

/-- R172: whatever the environment draws, also where the state lists no draw, a disable write completes, clears
`CTRLB`, and each latch keeps its byte, loses it, or (the shift register) takes over the waiting one. -/
def Obligations.HostDisableAlwaysCompletes : Prop :=
  ∀ s : State, s.isr = none → s.host = none → ∃ t,
    exec .hostDisable s = .next t ∧ t.ctrlB = 0x00#8 ∧ ConfFrame s t ∧
    (t.rxb = s.rxb ∨ t.rxb = none) ∧ (t.txb = s.txb ∨ t.txb = none) ∧
    (t.tsr = none ∨ t.tsr.map TxFrame.byte = s.tsr.map TxFrame.byte ∨ t.tsr.map TxFrame.byte = s.txb)

/-- R34: `phase` is written only by `INIT`; `RESET` gives it its reset value `Uninitialized`. -/
def Obligations.PhaseWrittenOnlyByInitAndReset : Prop :=
  ∀ (i : Instr) (s t : State), exec i s = .next t →
    (i = .reset → t.phase = .uninitialized) ∧
    (t.phase ≠ s.phase → i = .reset ∨ ∃ baud mode, i = .init baud mode)

/-- R35: only `RESET` clears `hook`, and only step C7 sets it. -/
def Obligations.HookSetByC7ClearedByReset : Prop :=
  ∀ (i : Instr) (s t : State), exec i s = .next t → t.hook ≠ s.hook →
    (t.hook = false ∧ i = .reset) ∨
    (t.hook = true ∧ ∃ cfg, s.host = some (.init .c7 cfg) ∨ s.host = some (.configure .c7 cfg))

/-! ## The transmit path -/

/-- R180: the two steps of `HOST_ENQUEUE`. E1: with room the byte goes to the back of the queue, and the kick follows
as a step of its own if the hook is registered; on a full queue `Err(Full)` is returned and nothing changes. E2: the
kick sets `txc`, the host is free again and `Ok` is returned. -/
def Obligations.EnqueuePushes : Prop :=
  ∀ (s : State) (b : Byte), s.isr = none →
    (s.host = none → s.txq.length < s.params.txCap → s.hook = true →
      exec (.hostEnqueue b) s =
        .next { s with txq := s.txq ++ [b], host := some .enqueue2, result := .pending }) ∧
    (s.host = none → s.txq.length < s.params.txCap → s.hook = false →
      exec (.hostEnqueue b) s = .next { s with txq := s.txq ++ [b], result := .ok }) ∧
    (s.host = none → s.params.txCap ≤ s.txq.length →
      exec (.hostEnqueue b) s = .next { s with result := .queueFull }) ∧
    (s.host = some .enqueue2 → exec (.hostEnqueue b) s = .next { s with txc := true, host := none, result := .ok })

/-- R181, R180: `TXKICK` is step E2 of a push: it sets `txc`, whatever `txc` was, frees the host and returns `Ok`, and
changes nothing else (log 13). It happens nowhere else: the host kicks within `HOST_ENQUEUE` only (R18, R190; log 12). -/
def Obligations.TxkickSetsTxcOnly : Prop :=
  ∀ s : State,
    (s.isr = none → s.host = some .enqueue2 →
      exec .txkick s = .next { s with txc := true, host := none, result := .ok }) ∧
    ((s.isr ≠ none ∨ s.host ≠ some .enqueue2) → exec .txkick s = .next { s with result := .blocked })

/-- R182: entry of `ISR_TXC`. With the guard true and no source ranked before it pending (none is ranked unless
`IRQ_ORDER` is given, R240), `txc` is cleared and the handler stands before its pop. That entry clears the flag is the
spec's decision D12. -/
def Obligations.TxcHandlerEntry : Prop :=
  ∀ s : State, s.isr = none → s.txc = true → s.txcie = true → s.outranked .txc = false →
    exec .isrTxc s = .next { s with txc := false, isr := some .txc1, result := .none }

/-- R184: entry of `ISR_UDRE`, in the same form; the spec's decision D13. -/
def Obligations.UdreHandlerEntry : Prop :=
  ∀ s : State, s.isr = none → s.udreReq = true → s.udrie = true → s.outranked .udre = false →
    exec .isrUdre s = .next { s with udreReq := false, isr := some .udre1, result := .none }

/-- R186: step P1. The pop is one step, taken by `PUMP` or by the handler's own operation: the oldest byte leaves the
queue and is kept in the handler's position; from an empty queue nothing is taken. -/
def Obligations.PumpPopsOneByte : Prop :=
  ∀ (s : State) (i : Instr),
    ((s.isr = some .txc1 ∧ (i = .pump ∨ i = .isrTxc)) →
      (∀ b rest, s.txq = b :: rest →
        exec i s = .next { s with txq := rest, isr := some (.txc2 (some b)), result := .none }) ∧
      (s.txq = [] → exec i s = .next { s with isr := some (.txc2 none), result := .none })) ∧
    ((s.isr = some .udre1 ∧ (i = .pump ∨ i = .isrUdre)) →
      (∀ b rest, s.txq = b :: rest →
        exec i s = .next { s with txq := rest, isr := some (.udre2 (some b)), result := .none }) ∧
      (s.txq = [] → exec i s = .next { s with isr := some (.udre2 none), result := .none }))

/-- R187: the write `Reg[DATA] <- b`, as step P2 makes it before it returns (R186). The write is logged and lowers
`udre_req`; on an idle transmitter the byte is absorbed at once and raises `udre_req` again; behind a shifting
byte it waits in `txb`; on a full `txb` it is the fault `TxOverrun`. An empty pump only returns. With `TXEN = 0`, which no
reachable state shows here, the write is refused under its name (U4, log 14). -/
def Obligations.PumpWritesTheDataRegister : Prop :=
  ∀ (s : State) (i : Instr) (r : Option Byte),
    ((s.isr = some (.txc2 r) ∧ (i = .pump ∨ i = .isrTxc)) ∨ (s.isr = some (.udre2 r) ∧ (i = .pump ∨ i = .isrUdre))) →
    (r = none → exec i s = .next { s with isr := none, result := .none }) ∧
    (∀ b, r = some b → s.txen = false → exec i s = .refused .dataWriteDisabled) ∧
    (∀ b, r = some b → s.txen = true →
      (∀ x, s.txb = some x →
        exec i s = .next { s with
          txWritten := s.txWritten ++ [b], udreReq := false, fault := { s.fault with txOverrun := true }
          isr := none, result := .none }) ∧
      (s.txb = none → s.tsr = none →
        exec i s = .next { s with
          txWritten := s.txWritten ++ [b], udreReq := true
          tsr := some { byte := b, fmt := { ctrlC := s.ctrlC, csz2 := s.csz2, u2x := s.u2x, baud := s.baud },
                        garbled := false }
          isr := none, result := .none }) ∧
      (∀ fr, s.txb = none → s.tsr = some fr →
        exec i s = .next { s with
          txWritten := s.txWritten ++ [b], udreReq := false, txb := some b, isr := none, result := .none }))

/-- R188: the end of a frame. The frame is logged (`Garbled` if it was garbled or its format is unspecified); a
waiting byte is absorbed under the current format and raises `udre_req`, and otherwise the line goes idle and `txc`
is set. It does not depend on `TXEN` or on a handler running. -/
def Obligations.TxDoneCompletesTheFrame : Prop :=
  ∀ (s : State) (fr : TxFrame), s.tsr = some fr → ∃ rec,
    (rec = LineFrame.garbled ↔ fr.garbled = true ∨ lineFrame fr.fmt fr.byte = none) ∧
    (rec ≠ LineFrame.garbled → rec = .frame fr.byte fr.fmt) ∧
    (∀ b, s.txb = some b →
      exec .hwTxDone s = .next { s with
        txLine := s.txLine ++ [rec]
        tsr := some { byte := b, fmt := { ctrlC := s.ctrlC, csz2 := s.csz2, u2x := s.u2x, baud := s.baud },
                      garbled := false }
        txb := none, udreReq := true, result := .none }) ∧
    (s.txb = none →
      exec .hwTxDone s = .next { s with
        txLine := s.txLine ++ [rec], tsr := none, txc := true, result := .none })

/-- R191, R192: no step of any operation loses, repeats or reorders a byte on its way to `DATA`: the bytes written,
held and queued change only by a push at the end (and `RESET` forgets the log). -/
def Obligations.TransmitStreamConserved : Prop :=
  ∀ (i : Instr) (s t : State), exec i s = .next t → i ≠ .reset →
    t.txStream = s.txStream ∨
    ∃ b, i = .hostEnqueue b ∧ s.host = none ∧ s.txq.length < s.params.txCap ∧ t.txStream = s.txStream ++ [b]

/-- R191: with no fault, no disable and no reconfiguration the frames on the line carry, in order, the bytes written,
but for those still in the hardware: the bytes of the line are a prefix of the bytes written. -/
def Obligations.LineFollowsWrites : Prop :=
  ∀ (i : Instr) (s t : State), agentOf i ≠ .host ∨ (∃ b, i = .hostEnqueue b) ∨ i = .txkick ∨ i = .hostDequeue →
    s.LineFollows → exec i s = .next t → t.FaultFree → t.LineFollows

/-- R189, R186: a step writes at most one byte to `DATA`, and only step P2 of a pump whose pop returned one. -/
def Obligations.AtMostOneByteWrittenPerStep : Prop :=
  ∀ (i : Instr) (s t : State), exec i s = .next t → i ≠ .reset →
    t.txWritten = s.txWritten ∨
    ∃ b, (s.isr = some (.txc2 (some b)) ∨ s.isr = some (.udre2 (some b))) ∧ t.isr = none ∧
      t.txWritten = s.txWritten ++ [b]

/-- R185: from a state that meets the invariant, `ISR_UDRE` cannot cause `TxOverrun`. -/
def Obligations.UdreHandlerNeverOverruns : Prop :=
  ∀ (i : Instr) (s t : State), s.Inv → inUdreHandler s.isr = true → exec i s = .next t →
    t.fault.txOverrun = s.fault.txOverrun

/-- R283: the transmitter has room for two bytes. While at most two are in `txb`, `tsr`, `txq` and the handlers
together no step overruns, and only a push makes their number grow, by one. -/
def Obligations.TwoBytesNeverOverrun : Prop :=
  ∀ (i : Instr) (s t : State), exec i s = .next t →
    (s.Inv → s.inFlight ≤ 2 → t.fault.txOverrun = s.fault.txOverrun) ∧
    (t.inFlight ≤ s.inFlight ∨ ∃ b, i = .hostEnqueue b ∧ s.host = none ∧ t.inFlight = s.inFlight + 1)

/-- R194: what brings the pump to a queued byte is lost by no step but a configuration, a disable or `RESET`. (A
disable that loses the byte in the shift register does lose it; R194 does not name that case, see NOTES.md.) -/
def Obligations.DrainStaysPending : Prop :=
  ∀ (i : Instr) (s t : State), agentOf i ≠ .host ∨ (∃ b, i = .hostEnqueue b) ∨ i = .txkick ∨ i = .hostDequeue →
    s.Inv → s.DrainPending → exec i s = .next t → i ≠ .reset → t.DrainPending

/-- R193, R195 for one byte: from any enabled idle transmitter the byte pushed is written and sent by one handler run
that pops it and two that find the queue empty, and the block rests again. -/
def Obligations.OneByteIsSentAndTheBlockRests : Prop :=
  ∀ (s : State) (baud : Word) (mode : Half) (b : Byte),
    s.Enabled baud mode → (encodeFrame mode).enableTx = true → 1 ≤ s.params.txCap →
    ∃ t, runOps [.hostEnqueue b, .txkick, .isrTxc, .pump, .pump, .isrUdre, .pump, .pump, .hwTxDone,
        .isrTxc, .pump, .pump] s = .next t ∧
      t.Quiescent ∧ t.txWritten = [b] ∧ t.txq = [] ∧ t.FaultFree ∧
      t.txLine = [if lineFrame s.fmt b = none then .garbled else .frame b s.fmt]

/-- R32: `txc` is set only by the end of a frame on an idle line or by a kick, and cleared only by entry of `ISR_TXC`
or by `RESET`. -/
def Obligations.TxcSetAndClearedOnlyAsListed : Prop :=
  ∀ (i : Instr) (s t : State), exec i s = .next t →
    (s.txc = false → t.txc = true →
      (i = .hwTxDone ∧ s.txb = none ∧ t.tsr = none) ∨
      (s.host = some .enqueue2 ∧ (i = .txkick ∨ ∃ b, i = .hostEnqueue b))) ∧
    (s.txc = true → t.txc = false → i = .reset ∨ (i = .isrTxc ∧ s.isr = none ∧ t.isr = some .txc1))

/-- R33: `udre_req` is set only at an absorption and cleared only by a `DATA` write, by entry of `ISR_UDRE` or by
`RESET`. -/
def Obligations.UdreRequestSetAndClearedOnlyAsListed : Prop :=
  ∀ (i : Instr) (s t : State), exec i s = .next t →
    (s.udreReq = false → t.udreReq = true → t.txb = none ∧ ∃ b,
      t.tsr = some { byte := b, fmt := t.fmt, garbled := false } ∧
      (s.txb = some b ∨ s.isr = some (.txc2 (some b)) ∨ s.isr = some (.udre2 (some b)))) ∧
    (s.udreReq = true → t.udreReq = false →
      i = .reset ∨ (i = .isrUdre ∧ s.isr = none ∧ t.isr = some .udre1) ∨
      ∃ b, t.txWritten = s.txWritten ++ [b])

/-! ## The receive path -/

/-- R210: a frame arrives. With the receiver on and the input register empty the byte is taken; on a full input
register it is the fault `RxOverrun`, and the first byte stays (the spec's decision D16). -/
def Obligations.RxFrameArrives : Prop :=
  ∀ (s : State) (b : Byte), s.rxen = true →
    (∀ n, sizeBits (fmtSize3 s.fmt) = some n → n < 8 → b.toNat < 2 ^ n) →
    (s.rxb = none → exec (.hwRxFrame b) s = .next { s with rxb := some b, result := .none }) ∧
    (∀ x, s.rxb = some x →
      exec (.hwRxFrame b) s = .next { s with fault := { s.fault with rxOverrun := true }, result := .none })

/-- R211: entry of `ISR_RXC`, with no source ranked before it pending (R240). Nothing is cleared at entry. -/
def Obligations.RxcHandlerEntry : Prop :=
  ∀ s : State, s.isr = none → s.rxb ≠ none → s.rxcie = true → s.outranked .rxc = false →
    exec .isrRxc s = .next { s with isr := some .rxc1, result := .none }

/-- R213, R212: step X1 reads the input register, which empties it; with the register empty, which no reachable
state shows, the access is refused (U3). -/
def Obligations.RxcReadEmptiesTheInputRegister : Prop :=
  ∀ s : State, s.isr = some .rxc1 →
    (∀ b, s.rxb = some b →
      exec .isrRxc s = .next { s with rxb := none, isr := some (.rxc2 b), result := .none }) ∧
    (s.rxb = none → exec .isrRxc s = .refused .dataReadEmpty)

/-- R212, R215, R217: step X2 pushes the byte and returns; on a full receive queue the byte is dropped silently: the
queue, the fault set and the data path are unchanged and only the ghost count grows. -/
def Obligations.RxcPushOrSilentDrop : Prop :=
  ∀ (s : State) (b : Byte), s.isr = some (.rxc2 b) →
    (s.rxq.length < s.params.rxCap →
      exec .isrRxc s = .next { s with rxq := s.rxq ++ [b], isr := none, result := .none }) ∧
    (s.params.rxCap ≤ s.rxq.length →
      exec .isrRxc s = .next { s with rxDropped := s.rxDropped + 1, isr := none, result := .none })

/-- R214: `HOST_DEQUEUE` gives the oldest received byte, or none from an empty queue, and touches no register. -/
def Obligations.DequeuePopsTheOldest : Prop :=
  ∀ s : State, s.isr = none → s.host = none →
    (∀ b rest, s.rxq = b :: rest →
      exec .hostDequeue s = .next { s with rxq := rest, result := .popped (some b) }) ∧
    (s.rxq = [] → exec .hostDequeue s = .next { s with result := .popped none })

/-- R216, R219: the bytes received and not yet given to the application keep their order. A step adds an arriving byte
at the end, or gives the oldest to the host, or drops the handler's byte on a full queue (counted), or loses the
input register's at a disable; `RESET` apart, nothing else changes them. -/
def Obligations.ReceiveStreamConserved : Prop :=
  ∀ (i : Instr) (s t : State), exec i s = .next t → i ≠ .reset →
    t.rxStream = s.rxStream ∨
    (∃ b, i = .hwRxFrame b ∧ s.rxb = none ∧ t.rxStream = s.rxStream ++ [b]) ∨
    (∃ b, i = .hostDequeue ∧ t.result = .popped (some b) ∧ s.rxStream = b :: t.rxStream) ∨
    (∃ b, s.isr = some (.rxc2 b) ∧ s.params.rxCap ≤ s.rxq.length ∧ t.rxDropped = s.rxDropped + 1 ∧
      s.rxStream = s.rxq ++ [b] ++ s.rxb.toList ∧ t.rxStream = s.rxq ++ s.rxb.toList) ∨
    (s.rxen = true ∧ t.rxen = false ∧ t.rxb = none ∧ t.rxStream = s.rxq ++ heldRx s.isr)

/-! ## Contexts, interrupts, reset -/

/-- R237, R174, R236: a handler is entered only by its own operation, with its request 1, its enable bit 1 and no
handler running; so with every enable 0 none is entered. -/
def Obligations.DispatchNeedsRequestAndEnable : Prop :=
  ∀ (i : Instr) (s t : State), exec i s = .next t → s.isr = none → t.isr ≠ none →
    ∃ src, i = handlerOf src ∧ s.request src = true ∧ s.enable src = true ∧
      (s.rxcie = true ∨ s.udrie = true ∨ s.txcie = true)

/-- R241, R243, R43 (v): while a handler runs no other is entered and the host does not move: a step keeps the
handler's position, or takes it to the handler's next one, or returns; and `RESET` apart `host` is unchanged. -/
def Obligations.NoNestingAndTheHostWaits : Prop :=
  ∀ (i : Instr) (s t : State) (p : IsrProgress), exec i s = .next t → s.isr = some p → i ≠ .reset →
    t.host = s.host ∧ t.ctrlB = s.ctrlB ∧
    (t.isr = some p ∨
      (p = .txc1 ∧ ∃ r, t.isr = some (.txc2 r)) ∨ (p = .udre1 ∧ ∃ r, t.isr = some (.udre2 r)) ∨
      (p = .rxc1 ∧ ∃ b, t.isr = some (.rxc2 b)) ∨
      (t.isr = none ∧ p ≠ .txc1 ∧ p ≠ .udre1 ∧ p ≠ .rxc1))

/-- R244, R18, R167, R180: a host operation needs main context, and the host is single-threaded: while a handler runs,
or while another host operation is in progress, it does not happen. What a step that does not happen leaves is the
model's (log 4): the state as it was, and `blocked` as the result. -/
def Obligations.HostOperationsWaitTheirTurn : Prop :=
  ∀ (i : Instr) (s : State), agentOf i = .host →
    (s.isr ≠ none ∨ (∃ p, s.host = some p ∧ continuesHost i p = false)) →
    exec i s = .next { s with result := .blocked }

/-- R237, R186, R212, R188, R210: a handler's entry without its request or its enable, a handler's step from another
handler's position, the pump with no transmit handler, the end of a frame with the shift register empty, an arrival with
`RXEN = 0` or of a byte the character size cannot carry (log 15): none of them happens. Nor does an entry behind a pending
source that `IRQ_ORDER` ranks before it: that is the model's reading of the parameter of R240 and decision D17 (log 19).
What a step that does not happen leaves is the model's (log 4). -/
def Obligations.StepsWithoutTheirGuardDoNotHappen : Prop :=
  ∀ (i : Instr) (s : State),
    ((∃ src, i = handlerOf src ∧ s.isr = none ∧ (s.request src = false ∨ s.enable src = false ∨ s.outranked src = true)) ∨
      (i = .pump ∧ s.isr = none) ∨
      (agentOf i = .irq ∧ ∃ p, s.isr = some p ∧ continuesHandler i p = false) ∨
      (i = .hwTxDone ∧ s.tsr = none) ∨
      (∃ b, i = .hwRxFrame b ∧ (s.rxen = false ∨ ∃ n, sizeBits (fmtSize3 s.fmt) = some n ∧ 2 ^ n ≤ b.toNat))) →
    exec i s = .next { s with result := .blocked }

/-- R270, R44: `RESET` is enabled in every state and gives every element its reset value; the queues and the fault set
are left as they are, and `CTRLA` reads 0x20. The parameters, draws and agenda stay (log 24). -/
def Obligations.ResetGivesTheResetValues : Prop :=
  ∀ s : State, ∃ t, exec .reset s = .next t ∧
    t = { s with
      u2x := false, txc := false, ctrlB := 0x00#8, ctrlC := 0x00#8, baud := 0#32, txb := none, tsr := none
      rxb := none, udreReq := false, phase := .uninitialized, hook := false, host := none, isr := none
      txWritten := [], txLine := [], rxDropped := 0, result := .none } ∧
    t.ctrlA = 0x20#8

/-- R44, R293: the state after reset is a `CleanStart` and meets the invariant. -/
def Obligations.ResetStateIsClean : Prop :=
  State.reset.CleanStart ∧ State.reset.Inv

/-- R43 (i) to (iv), R22, R168, R174, R185, R129 (f): every step of the machine keeps the invariant, from every state
that meets it. -/
def Obligations.StepKeepsInvariant : Prop :=
  ∀ s t : State, s.Inv → step s = .next t → t.Inv

/-- R230, R235, U3, U4: from a state that meets the invariant every operation completes: no operation stops the
machine on any operand. -/
def Obligations.EveryOperationCompletes : Prop :=
  ∀ (i : Instr) (s : State), s.Inv → ∃ t, exec i s = .next t

/-- R39: no step removes a fault from the sticky set, not even `RESET`; and only the two causes of R234 add one. -/
def Obligations.FaultsAreStickyAndHaveTheirCauses : Prop :=
  ∀ (i : Instr) (s t : State), exec i s = .next t →
    (s.fault.txOverrun = true → t.fault.txOverrun = true) ∧ (s.fault.rxOverrun = true → t.fault.rxOverrun = true) ∧
    (s.fault.txOverrun = false → t.fault.txOverrun = true → s.txb ≠ none ∧ heldTx s.isr ≠ []) ∧
    (s.fault.rxOverrun = false → t.fault.rxOverrun = true → s.rxb ≠ none ∧ ∃ b, i = .hwRxFrame b)

/-- R294: in a `Quiescent` state no handler and no transmitter step is enabled, and no frame arrives with the receiver
off. R190: in an idle state of the transmitter with the transmit queue empty no transmit step is enabled except
`HOST_ENQUEUE`, of which a kick that is still due is the second step. What a step that does not happen leaves is the
model's (log 4). -/
def Obligations.QuiescentBlockRests : Prop :=
  ∀ (i : Instr) (s : State),
    (s.Quiescent → (agentOf i = .irq ∨ i = .hwTxDone ∨ ((∃ b, i = .hwRxFrame b) ∧ s.rxen = false)) →
      exec i s = .next { s with result := .blocked }) ∧
    (s.TxIdle → s.txq = [] →
      (i = .isrTxc ∨ i = .isrUdre ∨ i = .pump ∨ i = .hwTxDone ∨ (i = .txkick ∧ s.host ≠ some .enqueue2)) →
      exec i s = .next { s with result := .blocked })

/-- R62, R80: each queue has one producer and one consumer: only `HOST_ENQUEUE` pushes `txq` and only the pump pops
it; only `ISR_RXC` pushes `rxq` and only `HOST_DEQUEUE` pops it. -/
def Obligations.QueuesHaveOneProducerAndOneConsumer : Prop :=
  ∀ (i : Instr) (s t : State), exec i s = .next t →
    (t.txq = s.txq ∨ (∃ b, i = .hostEnqueue b ∧ t.txq = s.txq ++ [b]) ∨
      (∃ b, (i = .pump ∨ i = .isrTxc ∨ i = .isrUdre) ∧ (s.isr = some .txc1 ∨ s.isr = some .udre1) ∧
        s.txq = b :: t.txq)) ∧
    (t.rxq = s.rxq ∨ (∃ b, i = .isrRxc ∧ s.isr = some (.rxc2 b) ∧ t.rxq = s.rxq ++ [b]) ∨
      (∃ b, i = .hostDequeue ∧ s.rxq = b :: t.rxq))

/-- R65, U8: the bus reaches the five registers at their offsets and widths, and every other access is refused. -/
def Obligations.BusReachesTheRegistersOnly : Prop :=
  ∀ (s : State) (addr n : Nat) (v : Word),
    (∀ r k w, (r, k, w) ∈ [(Reg.ctrlA, 0, 1), (Reg.ctrlB, 1, 1), (Reg.ctrlC, 2, 1), (Reg.data, 3, 1), (Reg.baud, 4, 4)] →
      addr = s.params.base + k → n = w → memRead addr n s = regRead r s ∧ memWrite addr n v s = regWrite r v s) ∧
    ((∀ k w, (k, w) ∈ [(0, 1), (1, 1), (2, 1), (3, 1), (4, 4)] → ¬ (addr = s.params.base + k ∧ n = w)) →
      memRead addr n s = .error .badAccess ∧ memWrite addr n v s = .error .badAccess)

/-- R21 to R25, R66: what a read of each register returns, and what a write of `v` (of `w` for `BAUD`) does, before which
and after which it reads so. `CTRLA` reads `{RXC, txc, UDRE, 0, 0, 0, u2x, 0}`, and a write stores `U2X` and sets `txc` if bit
6 is 1; `CTRLB` stores what is written with bits 1:0 as 0, `CTRLC` and `BAUD` store what is written. The reads of these four
have no side effect, and a `DATA` read empties the input register. A write that changes a stored format or rate value
garbles the frame in the shift register (R173, decision D22; log 25). A `CTRLB` write that turns the transmitter or the
receiver off loses the latched bytes drawn (R172, decision D21; the order of garbling and loss is log 10, the draw log 9,
here any head of the state's list). A `DATA` write does what R187 says (decisions D14, D15); with `TXEN = 0` it is refused
(U4, log 14). Nothing else changes. The layouts are the spec's decision D4, that a 0 written to `TXC` has no effect its
decision D12. -/
def Obligations.ControlRegistersReadBack : Prop :=
  ∀ (s : State) (v : Byte) (w : Word),
    let garbledIf (changed : Bool) : Option TxFrame := s.tsr.map fun fr => { fr with garbled := fr.garbled || changed }
    regRead .ctrlA s = .ok ((bit s.rxb.isSome ++ bit s.txc ++ bit s.txb.isNone ++ 0#3 ++ bit s.u2x ++ 0#1).setWidth 32, s) ∧
    regRead .ctrlB s = .ok (s.ctrlB.setWidth 32, s) ∧ regRead .ctrlC s = .ok (s.ctrlC.setWidth 32, s) ∧
    regRead .baud s = .ok (s.baud, s) ∧
    (∀ b, s.rxb = some b → regRead .data s = .ok (b.setWidth 32, { s with rxb := none })) ∧
    (∃ t, regWrite .ctrlA (v.setWidth 32) s = .ok t ∧
      t = { s with
        u2x := v.getLsbD 1, txc := s.txc || v.getLsbD 6, tsr := garbledIf (v.getLsbD 1 != s.u2x) } ∧
      regRead .ctrlA t = .ok ((bit s.rxb.isSome ++ bit (s.txc || v.getLsbD 6) ++ bit s.txb.isNone ++ 0#3 ++
        bit (v.getLsbD 1) ++ 0#1).setWidth 32, t)) ∧
    (∃ t, regWrite .ctrlC (v.setWidth 32) s = .ok t ∧
      t = { s with ctrlC := v, tsr := garbledIf (v != s.ctrlC) } ∧ regRead .ctrlC t = .ok (v.setWidth 32, t)) ∧
    (∃ t, regWrite .baud w s = .ok t ∧
      t = { s with baud := w, tsr := garbledIf (w != s.baud) } ∧ regRead .baud t = .ok (w, t)) ∧
    (∃ t, regWrite .ctrlB (v.setWidth 32) s = .ok t ∧ regRead .ctrlB t = .ok ((v &&& 0xFC#8).setWidth 32, t) ∧
      let txOff := s.txen && !v.getLsbD 3
      let rxOff := s.rxen && !v.getLsbD 4
      let stored := { s with ctrlB := v &&& 0xFC#8, tsr := garbledIf (v.getLsbD 2 != s.csz2) }
      (txOff = false → rxOff = false → t = stored) ∧
      (∀ d rest, s.draws = d :: rest → txOff = true ∨ rxOff = true →
        let keptTsr := if txOff && d.loseTsr then none else stored.tsr
        let keptTxb := if txOff && d.loseTxb then none else s.txb
        let kept := { stored with
          draws := rest, rxb := if rxOff && d.loseRxb then none else s.rxb, tsr := keptTsr, txb := keptTxb }
        (∀ b, txOff = true → keptTsr = none → keptTxb = some b →
          t = { kept with
            tsr := some { byte := b, fmt := { s.fmt with csz2 := v.getLsbD 2 }, garbled := false }
            txb := none, udreReq := true }) ∧
        (txOff = false ∨ keptTsr ≠ none ∨ keptTxb = none → t = kept))) ∧
    (s.txen = false → regWrite .data (v.setWidth 32) s = .error .dataWriteDisabled) ∧
    (s.txen = true →
      let written := { s with txWritten := s.txWritten ++ [v], udreReq := false }
      (∀ x, s.txb = some x → regWrite .data (v.setWidth 32) s =
        .ok { written with fault := { s.fault with txOverrun := true } }) ∧
      (s.txb = none → s.tsr = none → regWrite .data (v.setWidth 32) s =
        .ok { written with tsr := some { byte := v, fmt := s.fmt, garbled := false }, udreReq := true }) ∧
      (∀ fr, s.txb = none → s.tsr = some fr → regWrite .data (v.setWidth 32) s = .ok { written with txb := some v }))

/-- R251, R218, R219, R194. In a weakly fair run a handler always returns: from every moment there is a later one in main
context. In a fair run (log 20) with no `RESET` from some moment on: if the receive interrupt stays enabled, the byte then in
the input register stays there until `ISR_RXC` reads it, and that handler holds it until it pushes it or, on a full queue,
drops it and counts it; if the transmitter stays enabled, with the hook registered and the drain pending (R194), every byte
then on its way to `DATA` is written, in order. That a lossy disable can break the pending drain is said in NOTES.md. -/
def Obligations.FairRunsMakeProgress : Prop :=
  ∀ (sched : Nat → Instr) (σ : Nat → State), IsRun sched σ →
    (WeaklyFair sched σ → ∀ n, ∃ m, n ≤ m ∧ (σ m).isr = none) ∧
    (Fair sched σ → ∀ n, (∀ m, n ≤ m → sched m ≠ .reset) →
      (∀ b, (σ n).rxb = some b → (∀ m, n ≤ m → (σ m).rxcie = true) →
        ∃ k m, n ≤ k ∧ k < m ∧ (∀ j, n ≤ j → j ≤ k → (σ j).rxb = some b) ∧
          (∀ j, k < j → j ≤ m → (σ j).isr = some (.rxc2 b)) ∧ (σ (m + 1)).isr = none ∧
          ((σ m).rxq.length < (σ m).params.rxCap → (σ (m + 1)).rxq = (σ m).rxq ++ [b]) ∧
          ((σ m).params.rxCap ≤ (σ m).rxq.length →
            (σ (m + 1)).rxq = (σ m).rxq ∧ (σ (m + 1)).rxDropped = (σ m).rxDropped + 1)) ∧
      ((σ n).Inv → (σ n).hook = true → (σ n).DrainPending → (∀ m, n ≤ m → (σ m).txen = true) →
        ∃ m, n ≤ m ∧ (σ n).txStream <+: (σ m).txWritten))
end

