-- ==== Sys2Proof/Laws/Encoding.lean ====
section
/-! SUPPORT. Taking fields out of joined words: the lowest part of a join, and what lies above it. The proofs about
`encode` peel a word with these and unfold no bit. -/

namespace Sys2Proof

/-- The low bits of a join are its second part. -/
theorem extract_append_low {n m : Nat} (x : BitVec n) (y : BitVec m) : (x ++ y).extractLsb' 0 m = y := by
  ext i hi
  simp [BitVec.getLsbD_append, hi]

/-- A field above the second part of a join is a field of its first part. -/
theorem extract_append_high {n m : Nat} (x : BitVec n) (y : BitVec m) (k l : Nat) :
    (x ++ y).extractLsb' (m + k) l = x.extractLsb' k l := by
  ext i hi
  simp only [BitVec.getElem_extractLsb', BitVec.getLsbD_append]
  rw [if_neg (by omega)]
  congr 1
  omega

/-- A bit below the width of the second part of a join is a bit of it. -/
theorem bit_append_low {n m : Nat} (x : BitVec n) (y : BitVec m) (k : Nat) (h : k < m) :
    (x ++ y).getLsbD k = y.getLsbD k := by
  simp only [BitVec.getLsbD_append]
  rw [if_pos h]

/-- A bit above the second part of a join is a bit of its first part. -/
theorem bit_append_high {n m : Nat} (x : BitVec n) (y : BitVec m) (k : Nat) :
    (x ++ y).getLsbD (m + k) = x.getLsbD k := by
  simp only [BitVec.getLsbD_append]
  rw [if_neg (by omega)]
  congr 1
  omega

@[simp] theorem bit_getLsbD (b : Bool) : (bit b).getLsbD 0 = b := by cases b <;> rfl

end Sys2Proof
end

