-- ==== Sys2Proof/Laws/State.lean ====
section
/-! SUPPORT. One lemma per field of `State` and per named update: what the update leaves in the field. -/

namespace Sys2Proof
namespace Machine

/-- Bit 6 of an image for `CTRLA` is 0, so that it leaves `txc` alone (R97). -/
@[simp] theorem imgAOf_bit6 (ds : Bool) : (imgAOf ds)[6] = false := by cases ds <;> decide

/-- Bit 1 of an image for `CTRLA` is the double-speed bit (R97). -/
@[simp] theorem imgAOf_bit1 (ds : Bool) : (imgAOf ds)[1] = ds := by cases ds <;> decide

/-! ### `ret` -/

@[simp] theorem ret_u2x (s : State) (r : OpResult) : (s.ret r).u2x = s.u2x := rfl
@[simp] theorem ret_txc (s : State) (r : OpResult) : (s.ret r).txc = s.txc := rfl
@[simp] theorem ret_ctrlB (s : State) (r : OpResult) : (s.ret r).ctrlB = s.ctrlB := rfl
@[simp] theorem ret_ctrlC (s : State) (r : OpResult) : (s.ret r).ctrlC = s.ctrlC := rfl
@[simp] theorem ret_baud (s : State) (r : OpResult) : (s.ret r).baud = s.baud := rfl
@[simp] theorem ret_txb (s : State) (r : OpResult) : (s.ret r).txb = s.txb := rfl
@[simp] theorem ret_tsr (s : State) (r : OpResult) : (s.ret r).tsr = s.tsr := rfl
@[simp] theorem ret_rxb (s : State) (r : OpResult) : (s.ret r).rxb = s.rxb := rfl
@[simp] theorem ret_udreReq (s : State) (r : OpResult) : (s.ret r).udreReq = s.udreReq := rfl
@[simp] theorem ret_phase (s : State) (r : OpResult) : (s.ret r).phase = s.phase := rfl
@[simp] theorem ret_hook (s : State) (r : OpResult) : (s.ret r).hook = s.hook := rfl
@[simp] theorem ret_host (s : State) (r : OpResult) : (s.ret r).host = s.host := rfl
@[simp] theorem ret_isr (s : State) (r : OpResult) : (s.ret r).isr = s.isr := rfl
@[simp] theorem ret_txq (s : State) (r : OpResult) : (s.ret r).txq = s.txq := rfl
@[simp] theorem ret_rxq (s : State) (r : OpResult) : (s.ret r).rxq = s.rxq := rfl
@[simp] theorem ret_txWritten (s : State) (r : OpResult) : (s.ret r).txWritten = s.txWritten := rfl
@[simp] theorem ret_txLine (s : State) (r : OpResult) : (s.ret r).txLine = s.txLine := rfl
@[simp] theorem ret_rxDropped (s : State) (r : OpResult) : (s.ret r).rxDropped = s.rxDropped := rfl
@[simp] theorem ret_fault (s : State) (r : OpResult) : (s.ret r).fault = s.fault := rfl
@[simp] theorem ret_params (s : State) (r : OpResult) : (s.ret r).params = s.params := rfl
@[simp] theorem ret_result (s : State) (r : OpResult) : (s.ret r).result = r := rfl
@[simp] theorem ret_draws (s : State) (r : OpResult) : (s.ret r).draws = s.draws := rfl
@[simp] theorem ret_drawCount (s : State) (r : OpResult) : (s.ret r).drawCount = s.drawCount := rfl
@[simp] theorem ret_agenda (s : State) (r : OpResult) : (s.ret r).agenda = s.agenda := rfl
@[simp] theorem ret_txen (s : State) (r : OpResult) : (s.ret r).txen = s.txen := by simp [State.txen]
@[simp] theorem ret_txcie (s : State) (r : OpResult) : (s.ret r).txcie = s.txcie := by simp [State.txcie]
@[simp] theorem ret_udrie (s : State) (r : OpResult) : (s.ret r).udrie = s.udrie := by simp [State.udrie]
@[simp] theorem ret_rxen (s : State) (r : OpResult) : (s.ret r).rxen = s.rxen := by simp [State.rxen]
@[simp] theorem ret_rxcie (s : State) (r : OpResult) : (s.ret r).rxcie = s.rxcie := by simp [State.rxcie]
@[simp] theorem ret_csz2 (s : State) (r : OpResult) : (s.ret r).csz2 = s.csz2 := by simp [State.csz2]

/-! ### `absorb` -/

@[simp] theorem absorb_u2x (b : Byte) (s : State) : (absorb b s).u2x = s.u2x := rfl
@[simp] theorem absorb_txc (b : Byte) (s : State) : (absorb b s).txc = s.txc := rfl
@[simp] theorem absorb_ctrlB (b : Byte) (s : State) : (absorb b s).ctrlB = s.ctrlB := rfl
@[simp] theorem absorb_ctrlC (b : Byte) (s : State) : (absorb b s).ctrlC = s.ctrlC := rfl
@[simp] theorem absorb_baud (b : Byte) (s : State) : (absorb b s).baud = s.baud := rfl
@[simp] theorem absorb_txb (b : Byte) (s : State) : (absorb b s).txb = s.txb := rfl
@[simp] theorem absorb_tsr (b : Byte) (s : State) : (absorb b s).tsr = some { byte := b, fmt := s.fmt, garbled := false } := rfl
@[simp] theorem absorb_rxb (b : Byte) (s : State) : (absorb b s).rxb = s.rxb := rfl
@[simp] theorem absorb_udreReq (b : Byte) (s : State) : (absorb b s).udreReq = true := rfl
@[simp] theorem absorb_phase (b : Byte) (s : State) : (absorb b s).phase = s.phase := rfl
@[simp] theorem absorb_hook (b : Byte) (s : State) : (absorb b s).hook = s.hook := rfl
@[simp] theorem absorb_host (b : Byte) (s : State) : (absorb b s).host = s.host := rfl
@[simp] theorem absorb_isr (b : Byte) (s : State) : (absorb b s).isr = s.isr := rfl
@[simp] theorem absorb_txq (b : Byte) (s : State) : (absorb b s).txq = s.txq := rfl
@[simp] theorem absorb_rxq (b : Byte) (s : State) : (absorb b s).rxq = s.rxq := rfl
@[simp] theorem absorb_txWritten (b : Byte) (s : State) : (absorb b s).txWritten = s.txWritten := rfl
@[simp] theorem absorb_txLine (b : Byte) (s : State) : (absorb b s).txLine = s.txLine := rfl
@[simp] theorem absorb_rxDropped (b : Byte) (s : State) : (absorb b s).rxDropped = s.rxDropped := rfl
@[simp] theorem absorb_fault (b : Byte) (s : State) : (absorb b s).fault = s.fault := rfl
@[simp] theorem absorb_params (b : Byte) (s : State) : (absorb b s).params = s.params := rfl
@[simp] theorem absorb_result (b : Byte) (s : State) : (absorb b s).result = s.result := rfl
@[simp] theorem absorb_draws (b : Byte) (s : State) : (absorb b s).draws = s.draws := rfl
@[simp] theorem absorb_drawCount (b : Byte) (s : State) : (absorb b s).drawCount = s.drawCount := rfl
@[simp] theorem absorb_agenda (b : Byte) (s : State) : (absorb b s).agenda = s.agenda := rfl
@[simp] theorem absorb_txen (b : Byte) (s : State) : (absorb b s).txen = s.txen := by simp [State.txen]
@[simp] theorem absorb_txcie (b : Byte) (s : State) : (absorb b s).txcie = s.txcie := by simp [State.txcie]
@[simp] theorem absorb_udrie (b : Byte) (s : State) : (absorb b s).udrie = s.udrie := by simp [State.udrie]
@[simp] theorem absorb_rxen (b : Byte) (s : State) : (absorb b s).rxen = s.rxen := by simp [State.rxen]
@[simp] theorem absorb_rxcie (b : Byte) (s : State) : (absorb b s).rxcie = s.rxcie := by simp [State.rxcie]
@[simp] theorem absorb_csz2 (b : Byte) (s : State) : (absorb b s).csz2 = s.csz2 := by simp [State.csz2]

/-! ### `recordFault` -/

@[simp] theorem recordFault_u2x (f : Fault) (s : State) : (recordFault f s).u2x = s.u2x := by cases f <;> rfl
@[simp] theorem recordFault_txc (f : Fault) (s : State) : (recordFault f s).txc = s.txc := by cases f <;> rfl
@[simp] theorem recordFault_ctrlB (f : Fault) (s : State) : (recordFault f s).ctrlB = s.ctrlB := by cases f <;> rfl
@[simp] theorem recordFault_ctrlC (f : Fault) (s : State) : (recordFault f s).ctrlC = s.ctrlC := by cases f <;> rfl
@[simp] theorem recordFault_baud (f : Fault) (s : State) : (recordFault f s).baud = s.baud := by cases f <;> rfl
@[simp] theorem recordFault_txb (f : Fault) (s : State) : (recordFault f s).txb = s.txb := by cases f <;> rfl
@[simp] theorem recordFault_tsr (f : Fault) (s : State) : (recordFault f s).tsr = s.tsr := by cases f <;> rfl
@[simp] theorem recordFault_rxb (f : Fault) (s : State) : (recordFault f s).rxb = s.rxb := by cases f <;> rfl
@[simp] theorem recordFault_udreReq (f : Fault) (s : State) : (recordFault f s).udreReq = s.udreReq := by cases f <;> rfl
@[simp] theorem recordFault_phase (f : Fault) (s : State) : (recordFault f s).phase = s.phase := by cases f <;> rfl
@[simp] theorem recordFault_hook (f : Fault) (s : State) : (recordFault f s).hook = s.hook := by cases f <;> rfl
@[simp] theorem recordFault_host (f : Fault) (s : State) : (recordFault f s).host = s.host := by cases f <;> rfl
@[simp] theorem recordFault_isr (f : Fault) (s : State) : (recordFault f s).isr = s.isr := by cases f <;> rfl
@[simp] theorem recordFault_txq (f : Fault) (s : State) : (recordFault f s).txq = s.txq := by cases f <;> rfl
@[simp] theorem recordFault_rxq (f : Fault) (s : State) : (recordFault f s).rxq = s.rxq := by cases f <;> rfl
@[simp] theorem recordFault_txWritten (f : Fault) (s : State) : (recordFault f s).txWritten = s.txWritten := by cases f <;> rfl
@[simp] theorem recordFault_txLine (f : Fault) (s : State) : (recordFault f s).txLine = s.txLine := by cases f <;> rfl
@[simp] theorem recordFault_rxDropped (f : Fault) (s : State) : (recordFault f s).rxDropped = s.rxDropped := by cases f <;> rfl
@[simp] theorem recordFault_params (f : Fault) (s : State) : (recordFault f s).params = s.params := by cases f <;> rfl
@[simp] theorem recordFault_result (f : Fault) (s : State) : (recordFault f s).result = s.result := by cases f <;> rfl
@[simp] theorem recordFault_draws (f : Fault) (s : State) : (recordFault f s).draws = s.draws := by cases f <;> rfl
@[simp] theorem recordFault_drawCount (f : Fault) (s : State) : (recordFault f s).drawCount = s.drawCount := by cases f <;> rfl
@[simp] theorem recordFault_agenda (f : Fault) (s : State) : (recordFault f s).agenda = s.agenda := by cases f <;> rfl
@[simp] theorem recordFault_txen (f : Fault) (s : State) : (recordFault f s).txen = s.txen := by simp [State.txen]
@[simp] theorem recordFault_txcie (f : Fault) (s : State) : (recordFault f s).txcie = s.txcie := by simp [State.txcie]
@[simp] theorem recordFault_udrie (f : Fault) (s : State) : (recordFault f s).udrie = s.udrie := by simp [State.udrie]
@[simp] theorem recordFault_rxen (f : Fault) (s : State) : (recordFault f s).rxen = s.rxen := by simp [State.rxen]
@[simp] theorem recordFault_rxcie (f : Fault) (s : State) : (recordFault f s).rxcie = s.rxcie := by simp [State.rxcie]
@[simp] theorem recordFault_csz2 (f : Fault) (s : State) : (recordFault f s).csz2 = s.csz2 := by simp [State.csz2]

/-! ### `garble` -/

@[simp] theorem garble_u2x (c : Bool) (s : State) : (garble c s).u2x = s.u2x := by cases c <;> rfl
@[simp] theorem garble_txc (c : Bool) (s : State) : (garble c s).txc = s.txc := by cases c <;> rfl
@[simp] theorem garble_ctrlB (c : Bool) (s : State) : (garble c s).ctrlB = s.ctrlB := by cases c <;> rfl
@[simp] theorem garble_ctrlC (c : Bool) (s : State) : (garble c s).ctrlC = s.ctrlC := by cases c <;> rfl
@[simp] theorem garble_baud (c : Bool) (s : State) : (garble c s).baud = s.baud := by cases c <;> rfl
@[simp] theorem garble_txb (c : Bool) (s : State) : (garble c s).txb = s.txb := by cases c <;> rfl
@[simp] theorem garble_tsr (c : Bool) (s : State) : (garble c s).tsr = s.tsr.map fun fr => { fr with garbled := fr.garbled || c } := by cases c <;> simp [garble]
@[simp] theorem garble_rxb (c : Bool) (s : State) : (garble c s).rxb = s.rxb := by cases c <;> rfl
@[simp] theorem garble_udreReq (c : Bool) (s : State) : (garble c s).udreReq = s.udreReq := by cases c <;> rfl
@[simp] theorem garble_phase (c : Bool) (s : State) : (garble c s).phase = s.phase := by cases c <;> rfl
@[simp] theorem garble_hook (c : Bool) (s : State) : (garble c s).hook = s.hook := by cases c <;> rfl
@[simp] theorem garble_host (c : Bool) (s : State) : (garble c s).host = s.host := by cases c <;> rfl
@[simp] theorem garble_isr (c : Bool) (s : State) : (garble c s).isr = s.isr := by cases c <;> rfl
@[simp] theorem garble_txq (c : Bool) (s : State) : (garble c s).txq = s.txq := by cases c <;> rfl
@[simp] theorem garble_rxq (c : Bool) (s : State) : (garble c s).rxq = s.rxq := by cases c <;> rfl
@[simp] theorem garble_txWritten (c : Bool) (s : State) : (garble c s).txWritten = s.txWritten := by cases c <;> rfl
@[simp] theorem garble_txLine (c : Bool) (s : State) : (garble c s).txLine = s.txLine := by cases c <;> rfl
@[simp] theorem garble_rxDropped (c : Bool) (s : State) : (garble c s).rxDropped = s.rxDropped := by cases c <;> rfl
@[simp] theorem garble_fault (c : Bool) (s : State) : (garble c s).fault = s.fault := by cases c <;> rfl
@[simp] theorem garble_params (c : Bool) (s : State) : (garble c s).params = s.params := by cases c <;> rfl
@[simp] theorem garble_result (c : Bool) (s : State) : (garble c s).result = s.result := by cases c <;> rfl
@[simp] theorem garble_draws (c : Bool) (s : State) : (garble c s).draws = s.draws := by cases c <;> rfl
@[simp] theorem garble_drawCount (c : Bool) (s : State) : (garble c s).drawCount = s.drawCount := by cases c <;> rfl
@[simp] theorem garble_agenda (c : Bool) (s : State) : (garble c s).agenda = s.agenda := by cases c <;> rfl
@[simp] theorem garble_txen (c : Bool) (s : State) : (garble c s).txen = s.txen := by simp [State.txen]
@[simp] theorem garble_txcie (c : Bool) (s : State) : (garble c s).txcie = s.txcie := by simp [State.txcie]
@[simp] theorem garble_udrie (c : Bool) (s : State) : (garble c s).udrie = s.udrie := by simp [State.udrie]
@[simp] theorem garble_rxen (c : Bool) (s : State) : (garble c s).rxen = s.rxen := by simp [State.rxen]
@[simp] theorem garble_rxcie (c : Bool) (s : State) : (garble c s).rxcie = s.rxcie := by simp [State.rxcie]
@[simp] theorem garble_csz2 (c : Bool) (s : State) : (garble c s).csz2 = s.csz2 := by simp [State.csz2]

/-! ### `writeCtrlA` -/

@[simp] theorem writeCtrlA_u2x (v : Byte) (s : State) : (writeCtrlA v s).u2x = v.getLsbD 1 := by simp [writeCtrlA]
@[simp] theorem writeCtrlA_txc (v : Byte) (s : State) : (writeCtrlA v s).txc = (s.txc || v.getLsbD 6) := by simp [writeCtrlA]
@[simp] theorem writeCtrlA_ctrlB (v : Byte) (s : State) : (writeCtrlA v s).ctrlB = s.ctrlB := by simp [writeCtrlA]
@[simp] theorem writeCtrlA_ctrlC (v : Byte) (s : State) : (writeCtrlA v s).ctrlC = s.ctrlC := by simp [writeCtrlA]
@[simp] theorem writeCtrlA_baud (v : Byte) (s : State) : (writeCtrlA v s).baud = s.baud := by simp [writeCtrlA]
@[simp] theorem writeCtrlA_txb (v : Byte) (s : State) : (writeCtrlA v s).txb = s.txb := by simp [writeCtrlA]
@[simp] theorem writeCtrlA_tsr (v : Byte) (s : State) : (writeCtrlA v s).tsr = s.tsr.map fun fr => { fr with garbled := fr.garbled || (v.getLsbD 1 != s.u2x) } := by simp [writeCtrlA]
@[simp] theorem writeCtrlA_rxb (v : Byte) (s : State) : (writeCtrlA v s).rxb = s.rxb := by simp [writeCtrlA]
@[simp] theorem writeCtrlA_udreReq (v : Byte) (s : State) : (writeCtrlA v s).udreReq = s.udreReq := by simp [writeCtrlA]
@[simp] theorem writeCtrlA_phase (v : Byte) (s : State) : (writeCtrlA v s).phase = s.phase := by simp [writeCtrlA]
@[simp] theorem writeCtrlA_hook (v : Byte) (s : State) : (writeCtrlA v s).hook = s.hook := by simp [writeCtrlA]
@[simp] theorem writeCtrlA_host (v : Byte) (s : State) : (writeCtrlA v s).host = s.host := by simp [writeCtrlA]
@[simp] theorem writeCtrlA_isr (v : Byte) (s : State) : (writeCtrlA v s).isr = s.isr := by simp [writeCtrlA]
@[simp] theorem writeCtrlA_txq (v : Byte) (s : State) : (writeCtrlA v s).txq = s.txq := by simp [writeCtrlA]
@[simp] theorem writeCtrlA_rxq (v : Byte) (s : State) : (writeCtrlA v s).rxq = s.rxq := by simp [writeCtrlA]
@[simp] theorem writeCtrlA_txWritten (v : Byte) (s : State) : (writeCtrlA v s).txWritten = s.txWritten := by simp [writeCtrlA]
@[simp] theorem writeCtrlA_txLine (v : Byte) (s : State) : (writeCtrlA v s).txLine = s.txLine := by simp [writeCtrlA]
@[simp] theorem writeCtrlA_rxDropped (v : Byte) (s : State) : (writeCtrlA v s).rxDropped = s.rxDropped := by simp [writeCtrlA]
@[simp] theorem writeCtrlA_fault (v : Byte) (s : State) : (writeCtrlA v s).fault = s.fault := by simp [writeCtrlA]
@[simp] theorem writeCtrlA_params (v : Byte) (s : State) : (writeCtrlA v s).params = s.params := by simp [writeCtrlA]
@[simp] theorem writeCtrlA_result (v : Byte) (s : State) : (writeCtrlA v s).result = s.result := by simp [writeCtrlA]
@[simp] theorem writeCtrlA_draws (v : Byte) (s : State) : (writeCtrlA v s).draws = s.draws := by simp [writeCtrlA]
@[simp] theorem writeCtrlA_drawCount (v : Byte) (s : State) : (writeCtrlA v s).drawCount = s.drawCount := by simp [writeCtrlA]
@[simp] theorem writeCtrlA_agenda (v : Byte) (s : State) : (writeCtrlA v s).agenda = s.agenda := by simp [writeCtrlA]
@[simp] theorem writeCtrlA_txen (v : Byte) (s : State) : (writeCtrlA v s).txen = s.txen := by simp [State.txen]
@[simp] theorem writeCtrlA_txcie (v : Byte) (s : State) : (writeCtrlA v s).txcie = s.txcie := by simp [State.txcie]
@[simp] theorem writeCtrlA_udrie (v : Byte) (s : State) : (writeCtrlA v s).udrie = s.udrie := by simp [State.udrie]
@[simp] theorem writeCtrlA_rxen (v : Byte) (s : State) : (writeCtrlA v s).rxen = s.rxen := by simp [State.rxen]
@[simp] theorem writeCtrlA_rxcie (v : Byte) (s : State) : (writeCtrlA v s).rxcie = s.rxcie := by simp [State.rxcie]
@[simp] theorem writeCtrlA_csz2 (v : Byte) (s : State) : (writeCtrlA v s).csz2 = s.csz2 := by simp [State.csz2]

/-! ### `writeCtrlC` -/

@[simp] theorem writeCtrlC_u2x (v : Byte) (s : State) : (writeCtrlC v s).u2x = s.u2x := by simp [writeCtrlC]
@[simp] theorem writeCtrlC_txc (v : Byte) (s : State) : (writeCtrlC v s).txc = s.txc := by simp [writeCtrlC]
@[simp] theorem writeCtrlC_ctrlB (v : Byte) (s : State) : (writeCtrlC v s).ctrlB = s.ctrlB := by simp [writeCtrlC]
@[simp] theorem writeCtrlC_ctrlC (v : Byte) (s : State) : (writeCtrlC v s).ctrlC = v := by simp [writeCtrlC]
@[simp] theorem writeCtrlC_baud (v : Byte) (s : State) : (writeCtrlC v s).baud = s.baud := by simp [writeCtrlC]
@[simp] theorem writeCtrlC_txb (v : Byte) (s : State) : (writeCtrlC v s).txb = s.txb := by simp [writeCtrlC]
@[simp] theorem writeCtrlC_tsr (v : Byte) (s : State) : (writeCtrlC v s).tsr = s.tsr.map fun fr => { fr with garbled := fr.garbled || (v != s.ctrlC) } := by simp [writeCtrlC]
@[simp] theorem writeCtrlC_rxb (v : Byte) (s : State) : (writeCtrlC v s).rxb = s.rxb := by simp [writeCtrlC]
@[simp] theorem writeCtrlC_udreReq (v : Byte) (s : State) : (writeCtrlC v s).udreReq = s.udreReq := by simp [writeCtrlC]
@[simp] theorem writeCtrlC_phase (v : Byte) (s : State) : (writeCtrlC v s).phase = s.phase := by simp [writeCtrlC]
@[simp] theorem writeCtrlC_hook (v : Byte) (s : State) : (writeCtrlC v s).hook = s.hook := by simp [writeCtrlC]
@[simp] theorem writeCtrlC_host (v : Byte) (s : State) : (writeCtrlC v s).host = s.host := by simp [writeCtrlC]
@[simp] theorem writeCtrlC_isr (v : Byte) (s : State) : (writeCtrlC v s).isr = s.isr := by simp [writeCtrlC]
@[simp] theorem writeCtrlC_txq (v : Byte) (s : State) : (writeCtrlC v s).txq = s.txq := by simp [writeCtrlC]
@[simp] theorem writeCtrlC_rxq (v : Byte) (s : State) : (writeCtrlC v s).rxq = s.rxq := by simp [writeCtrlC]
@[simp] theorem writeCtrlC_txWritten (v : Byte) (s : State) : (writeCtrlC v s).txWritten = s.txWritten := by simp [writeCtrlC]
@[simp] theorem writeCtrlC_txLine (v : Byte) (s : State) : (writeCtrlC v s).txLine = s.txLine := by simp [writeCtrlC]
@[simp] theorem writeCtrlC_rxDropped (v : Byte) (s : State) : (writeCtrlC v s).rxDropped = s.rxDropped := by simp [writeCtrlC]
@[simp] theorem writeCtrlC_fault (v : Byte) (s : State) : (writeCtrlC v s).fault = s.fault := by simp [writeCtrlC]
@[simp] theorem writeCtrlC_params (v : Byte) (s : State) : (writeCtrlC v s).params = s.params := by simp [writeCtrlC]
@[simp] theorem writeCtrlC_result (v : Byte) (s : State) : (writeCtrlC v s).result = s.result := by simp [writeCtrlC]
@[simp] theorem writeCtrlC_draws (v : Byte) (s : State) : (writeCtrlC v s).draws = s.draws := by simp [writeCtrlC]
@[simp] theorem writeCtrlC_drawCount (v : Byte) (s : State) : (writeCtrlC v s).drawCount = s.drawCount := by simp [writeCtrlC]
@[simp] theorem writeCtrlC_agenda (v : Byte) (s : State) : (writeCtrlC v s).agenda = s.agenda := by simp [writeCtrlC]
@[simp] theorem writeCtrlC_txen (v : Byte) (s : State) : (writeCtrlC v s).txen = s.txen := by simp [State.txen]
@[simp] theorem writeCtrlC_txcie (v : Byte) (s : State) : (writeCtrlC v s).txcie = s.txcie := by simp [State.txcie]
@[simp] theorem writeCtrlC_udrie (v : Byte) (s : State) : (writeCtrlC v s).udrie = s.udrie := by simp [State.udrie]
@[simp] theorem writeCtrlC_rxen (v : Byte) (s : State) : (writeCtrlC v s).rxen = s.rxen := by simp [State.rxen]
@[simp] theorem writeCtrlC_rxcie (v : Byte) (s : State) : (writeCtrlC v s).rxcie = s.rxcie := by simp [State.rxcie]
@[simp] theorem writeCtrlC_csz2 (v : Byte) (s : State) : (writeCtrlC v s).csz2 = s.csz2 := by simp [State.csz2]

/-! ### `writeBaud` -/

@[simp] theorem writeBaud_u2x (v : Word) (s : State) : (writeBaud v s).u2x = s.u2x := by simp [writeBaud]
@[simp] theorem writeBaud_txc (v : Word) (s : State) : (writeBaud v s).txc = s.txc := by simp [writeBaud]
@[simp] theorem writeBaud_ctrlB (v : Word) (s : State) : (writeBaud v s).ctrlB = s.ctrlB := by simp [writeBaud]
@[simp] theorem writeBaud_ctrlC (v : Word) (s : State) : (writeBaud v s).ctrlC = s.ctrlC := by simp [writeBaud]
@[simp] theorem writeBaud_baud (v : Word) (s : State) : (writeBaud v s).baud = v := by simp [writeBaud]
@[simp] theorem writeBaud_txb (v : Word) (s : State) : (writeBaud v s).txb = s.txb := by simp [writeBaud]
@[simp] theorem writeBaud_tsr (v : Word) (s : State) : (writeBaud v s).tsr = s.tsr.map fun fr => { fr with garbled := fr.garbled || (v != s.baud) } := by simp [writeBaud]
@[simp] theorem writeBaud_rxb (v : Word) (s : State) : (writeBaud v s).rxb = s.rxb := by simp [writeBaud]
@[simp] theorem writeBaud_udreReq (v : Word) (s : State) : (writeBaud v s).udreReq = s.udreReq := by simp [writeBaud]
@[simp] theorem writeBaud_phase (v : Word) (s : State) : (writeBaud v s).phase = s.phase := by simp [writeBaud]
@[simp] theorem writeBaud_hook (v : Word) (s : State) : (writeBaud v s).hook = s.hook := by simp [writeBaud]
@[simp] theorem writeBaud_host (v : Word) (s : State) : (writeBaud v s).host = s.host := by simp [writeBaud]
@[simp] theorem writeBaud_isr (v : Word) (s : State) : (writeBaud v s).isr = s.isr := by simp [writeBaud]
@[simp] theorem writeBaud_txq (v : Word) (s : State) : (writeBaud v s).txq = s.txq := by simp [writeBaud]
@[simp] theorem writeBaud_rxq (v : Word) (s : State) : (writeBaud v s).rxq = s.rxq := by simp [writeBaud]
@[simp] theorem writeBaud_txWritten (v : Word) (s : State) : (writeBaud v s).txWritten = s.txWritten := by simp [writeBaud]
@[simp] theorem writeBaud_txLine (v : Word) (s : State) : (writeBaud v s).txLine = s.txLine := by simp [writeBaud]
@[simp] theorem writeBaud_rxDropped (v : Word) (s : State) : (writeBaud v s).rxDropped = s.rxDropped := by simp [writeBaud]
@[simp] theorem writeBaud_fault (v : Word) (s : State) : (writeBaud v s).fault = s.fault := by simp [writeBaud]
@[simp] theorem writeBaud_params (v : Word) (s : State) : (writeBaud v s).params = s.params := by simp [writeBaud]
@[simp] theorem writeBaud_result (v : Word) (s : State) : (writeBaud v s).result = s.result := by simp [writeBaud]
@[simp] theorem writeBaud_draws (v : Word) (s : State) : (writeBaud v s).draws = s.draws := by simp [writeBaud]
@[simp] theorem writeBaud_drawCount (v : Word) (s : State) : (writeBaud v s).drawCount = s.drawCount := by simp [writeBaud]
@[simp] theorem writeBaud_agenda (v : Word) (s : State) : (writeBaud v s).agenda = s.agenda := by simp [writeBaud]
@[simp] theorem writeBaud_txen (v : Word) (s : State) : (writeBaud v s).txen = s.txen := by simp [State.txen]
@[simp] theorem writeBaud_txcie (v : Word) (s : State) : (writeBaud v s).txcie = s.txcie := by simp [State.txcie]
@[simp] theorem writeBaud_udrie (v : Word) (s : State) : (writeBaud v s).udrie = s.udrie := by simp [State.udrie]
@[simp] theorem writeBaud_rxen (v : Word) (s : State) : (writeBaud v s).rxen = s.rxen := by simp [State.rxen]
@[simp] theorem writeBaud_rxcie (v : Word) (s : State) : (writeBaud v s).rxcie = s.rxcie := by simp [State.rxcie]
@[simp] theorem writeBaud_csz2 (v : Word) (s : State) : (writeBaud v s).csz2 = s.csz2 := by simp [State.csz2]

/-! ### `absorbWaiting` -/

@[simp] theorem absorbWaiting_u2x (s : State) : (absorbWaiting s).u2x = s.u2x := by unfold absorbWaiting; split <;> simp
@[simp] theorem absorbWaiting_txc (s : State) : (absorbWaiting s).txc = s.txc := by unfold absorbWaiting; split <;> simp
@[simp] theorem absorbWaiting_ctrlB (s : State) : (absorbWaiting s).ctrlB = s.ctrlB := by unfold absorbWaiting; split <;> simp
@[simp] theorem absorbWaiting_ctrlC (s : State) : (absorbWaiting s).ctrlC = s.ctrlC := by unfold absorbWaiting; split <;> simp
@[simp] theorem absorbWaiting_baud (s : State) : (absorbWaiting s).baud = s.baud := by unfold absorbWaiting; split <;> simp
@[simp] theorem absorbWaiting_rxb (s : State) : (absorbWaiting s).rxb = s.rxb := by unfold absorbWaiting; split <;> simp
@[simp] theorem absorbWaiting_phase (s : State) : (absorbWaiting s).phase = s.phase := by unfold absorbWaiting; split <;> simp
@[simp] theorem absorbWaiting_hook (s : State) : (absorbWaiting s).hook = s.hook := by unfold absorbWaiting; split <;> simp
@[simp] theorem absorbWaiting_host (s : State) : (absorbWaiting s).host = s.host := by unfold absorbWaiting; split <;> simp
@[simp] theorem absorbWaiting_isr (s : State) : (absorbWaiting s).isr = s.isr := by unfold absorbWaiting; split <;> simp
@[simp] theorem absorbWaiting_txq (s : State) : (absorbWaiting s).txq = s.txq := by unfold absorbWaiting; split <;> simp
@[simp] theorem absorbWaiting_rxq (s : State) : (absorbWaiting s).rxq = s.rxq := by unfold absorbWaiting; split <;> simp
@[simp] theorem absorbWaiting_txWritten (s : State) : (absorbWaiting s).txWritten = s.txWritten := by unfold absorbWaiting; split <;> simp
@[simp] theorem absorbWaiting_txLine (s : State) : (absorbWaiting s).txLine = s.txLine := by unfold absorbWaiting; split <;> simp
@[simp] theorem absorbWaiting_rxDropped (s : State) : (absorbWaiting s).rxDropped = s.rxDropped := by unfold absorbWaiting; split <;> simp
@[simp] theorem absorbWaiting_fault (s : State) : (absorbWaiting s).fault = s.fault := by unfold absorbWaiting; split <;> simp
@[simp] theorem absorbWaiting_params (s : State) : (absorbWaiting s).params = s.params := by unfold absorbWaiting; split <;> simp
@[simp] theorem absorbWaiting_result (s : State) : (absorbWaiting s).result = s.result := by unfold absorbWaiting; split <;> simp
@[simp] theorem absorbWaiting_draws (s : State) : (absorbWaiting s).draws = s.draws := by unfold absorbWaiting; split <;> simp
@[simp] theorem absorbWaiting_drawCount (s : State) : (absorbWaiting s).drawCount = s.drawCount := by unfold absorbWaiting; split <;> simp
@[simp] theorem absorbWaiting_agenda (s : State) : (absorbWaiting s).agenda = s.agenda := by unfold absorbWaiting; split <;> simp
@[simp] theorem absorbWaiting_txen (s : State) : (absorbWaiting s).txen = s.txen := by simp [State.txen]
@[simp] theorem absorbWaiting_txcie (s : State) : (absorbWaiting s).txcie = s.txcie := by simp [State.txcie]
@[simp] theorem absorbWaiting_udrie (s : State) : (absorbWaiting s).udrie = s.udrie := by simp [State.udrie]
@[simp] theorem absorbWaiting_rxen (s : State) : (absorbWaiting s).rxen = s.rxen := by simp [State.rxen]
@[simp] theorem absorbWaiting_rxcie (s : State) : (absorbWaiting s).rxcie = s.rxcie := by simp [State.rxcie]
@[simp] theorem absorbWaiting_csz2 (s : State) : (absorbWaiting s).csz2 = s.csz2 := by simp [State.csz2]

/-! ### `disableLoss` -/

@[simp] theorem disableLoss_u2x (a c : Bool) (s : State) : (disableLoss a c s).u2x = s.u2x := by cases a <;> cases c <;> simp [disableLoss, takeDraw, loseTx, loseRx] <;> (split <;> simp)
@[simp] theorem disableLoss_txc (a c : Bool) (s : State) : (disableLoss a c s).txc = s.txc := by cases a <;> cases c <;> simp [disableLoss, takeDraw, loseTx, loseRx] <;> (split <;> simp)
@[simp] theorem disableLoss_ctrlB (a c : Bool) (s : State) : (disableLoss a c s).ctrlB = s.ctrlB := by cases a <;> cases c <;> simp [disableLoss, takeDraw, loseTx, loseRx] <;> (split <;> simp)
@[simp] theorem disableLoss_ctrlC (a c : Bool) (s : State) : (disableLoss a c s).ctrlC = s.ctrlC := by cases a <;> cases c <;> simp [disableLoss, takeDraw, loseTx, loseRx] <;> (split <;> simp)
@[simp] theorem disableLoss_baud (a c : Bool) (s : State) : (disableLoss a c s).baud = s.baud := by cases a <;> cases c <;> simp [disableLoss, takeDraw, loseTx, loseRx] <;> (split <;> simp)
@[simp] theorem disableLoss_phase (a c : Bool) (s : State) : (disableLoss a c s).phase = s.phase := by cases a <;> cases c <;> simp [disableLoss, takeDraw, loseTx, loseRx] <;> (split <;> simp)
@[simp] theorem disableLoss_hook (a c : Bool) (s : State) : (disableLoss a c s).hook = s.hook := by cases a <;> cases c <;> simp [disableLoss, takeDraw, loseTx, loseRx] <;> (split <;> simp)
@[simp] theorem disableLoss_host (a c : Bool) (s : State) : (disableLoss a c s).host = s.host := by cases a <;> cases c <;> simp [disableLoss, takeDraw, loseTx, loseRx] <;> (split <;> simp)
@[simp] theorem disableLoss_isr (a c : Bool) (s : State) : (disableLoss a c s).isr = s.isr := by cases a <;> cases c <;> simp [disableLoss, takeDraw, loseTx, loseRx] <;> (split <;> simp)
@[simp] theorem disableLoss_txq (a c : Bool) (s : State) : (disableLoss a c s).txq = s.txq := by cases a <;> cases c <;> simp [disableLoss, takeDraw, loseTx, loseRx] <;> (split <;> simp)
@[simp] theorem disableLoss_rxq (a c : Bool) (s : State) : (disableLoss a c s).rxq = s.rxq := by cases a <;> cases c <;> simp [disableLoss, takeDraw, loseTx, loseRx] <;> (split <;> simp)
@[simp] theorem disableLoss_txWritten (a c : Bool) (s : State) : (disableLoss a c s).txWritten = s.txWritten := by cases a <;> cases c <;> simp [disableLoss, takeDraw, loseTx, loseRx] <;> (split <;> simp)
@[simp] theorem disableLoss_txLine (a c : Bool) (s : State) : (disableLoss a c s).txLine = s.txLine := by cases a <;> cases c <;> simp [disableLoss, takeDraw, loseTx, loseRx] <;> (split <;> simp)
@[simp] theorem disableLoss_rxDropped (a c : Bool) (s : State) : (disableLoss a c s).rxDropped = s.rxDropped := by cases a <;> cases c <;> simp [disableLoss, takeDraw, loseTx, loseRx] <;> (split <;> simp)
@[simp] theorem disableLoss_fault (a c : Bool) (s : State) : (disableLoss a c s).fault = s.fault := by cases a <;> cases c <;> simp [disableLoss, takeDraw, loseTx, loseRx] <;> (split <;> simp)
@[simp] theorem disableLoss_params (a c : Bool) (s : State) : (disableLoss a c s).params = s.params := by cases a <;> cases c <;> simp [disableLoss, takeDraw, loseTx, loseRx] <;> (split <;> simp)
@[simp] theorem disableLoss_result (a c : Bool) (s : State) : (disableLoss a c s).result = s.result := by cases a <;> cases c <;> simp [disableLoss, takeDraw, loseTx, loseRx] <;> (split <;> simp)
@[simp] theorem disableLoss_agenda (a c : Bool) (s : State) : (disableLoss a c s).agenda = s.agenda := by cases a <;> cases c <;> simp [disableLoss, takeDraw, loseTx, loseRx] <;> (split <;> simp)
@[simp] theorem disableLoss_txen (a c : Bool) (s : State) : (disableLoss a c s).txen = s.txen := by simp [State.txen]
@[simp] theorem disableLoss_txcie (a c : Bool) (s : State) : (disableLoss a c s).txcie = s.txcie := by simp [State.txcie]
@[simp] theorem disableLoss_udrie (a c : Bool) (s : State) : (disableLoss a c s).udrie = s.udrie := by simp [State.udrie]
@[simp] theorem disableLoss_rxen (a c : Bool) (s : State) : (disableLoss a c s).rxen = s.rxen := by simp [State.rxen]
@[simp] theorem disableLoss_rxcie (a c : Bool) (s : State) : (disableLoss a c s).rxcie = s.rxcie := by simp [State.rxcie]
@[simp] theorem disableLoss_csz2 (a c : Bool) (s : State) : (disableLoss a c s).csz2 = s.csz2 := by simp [State.csz2]

/-! ### `writeCtrlB` -/

@[simp] theorem writeCtrlB_u2x (v : Byte) (s : State) : (writeCtrlB v s).u2x = s.u2x := by simp [writeCtrlB]
@[simp] theorem writeCtrlB_txc (v : Byte) (s : State) : (writeCtrlB v s).txc = s.txc := by simp [writeCtrlB]
@[simp] theorem writeCtrlB_ctrlB (v : Byte) (s : State) : (writeCtrlB v s).ctrlB = v &&& 0xFC#8 := by simp [writeCtrlB]
@[simp] theorem writeCtrlB_ctrlC (v : Byte) (s : State) : (writeCtrlB v s).ctrlC = s.ctrlC := by simp [writeCtrlB]
@[simp] theorem writeCtrlB_baud (v : Byte) (s : State) : (writeCtrlB v s).baud = s.baud := by simp [writeCtrlB]
@[simp] theorem writeCtrlB_phase (v : Byte) (s : State) : (writeCtrlB v s).phase = s.phase := by simp [writeCtrlB]
@[simp] theorem writeCtrlB_hook (v : Byte) (s : State) : (writeCtrlB v s).hook = s.hook := by simp [writeCtrlB]
@[simp] theorem writeCtrlB_host (v : Byte) (s : State) : (writeCtrlB v s).host = s.host := by simp [writeCtrlB]
@[simp] theorem writeCtrlB_isr (v : Byte) (s : State) : (writeCtrlB v s).isr = s.isr := by simp [writeCtrlB]
@[simp] theorem writeCtrlB_txq (v : Byte) (s : State) : (writeCtrlB v s).txq = s.txq := by simp [writeCtrlB]
@[simp] theorem writeCtrlB_rxq (v : Byte) (s : State) : (writeCtrlB v s).rxq = s.rxq := by simp [writeCtrlB]
@[simp] theorem writeCtrlB_txWritten (v : Byte) (s : State) : (writeCtrlB v s).txWritten = s.txWritten := by simp [writeCtrlB]
@[simp] theorem writeCtrlB_txLine (v : Byte) (s : State) : (writeCtrlB v s).txLine = s.txLine := by simp [writeCtrlB]
@[simp] theorem writeCtrlB_rxDropped (v : Byte) (s : State) : (writeCtrlB v s).rxDropped = s.rxDropped := by simp [writeCtrlB]
@[simp] theorem writeCtrlB_fault (v : Byte) (s : State) : (writeCtrlB v s).fault = s.fault := by simp [writeCtrlB]
@[simp] theorem writeCtrlB_params (v : Byte) (s : State) : (writeCtrlB v s).params = s.params := by simp [writeCtrlB]
@[simp] theorem writeCtrlB_result (v : Byte) (s : State) : (writeCtrlB v s).result = s.result := by simp [writeCtrlB]
@[simp] theorem writeCtrlB_agenda (v : Byte) (s : State) : (writeCtrlB v s).agenda = s.agenda := by simp [writeCtrlB]

/-! ### `takeInterrupt` -/

@[simp] theorem takeInterrupt_u2x (src : Source) (s : State) : (takeInterrupt src s).u2x = s.u2x := by cases src <;> rfl
@[simp] theorem takeInterrupt_ctrlB (src : Source) (s : State) : (takeInterrupt src s).ctrlB = s.ctrlB := by cases src <;> rfl
@[simp] theorem takeInterrupt_ctrlC (src : Source) (s : State) : (takeInterrupt src s).ctrlC = s.ctrlC := by cases src <;> rfl
@[simp] theorem takeInterrupt_baud (src : Source) (s : State) : (takeInterrupt src s).baud = s.baud := by cases src <;> rfl
@[simp] theorem takeInterrupt_txb (src : Source) (s : State) : (takeInterrupt src s).txb = s.txb := by cases src <;> rfl
@[simp] theorem takeInterrupt_tsr (src : Source) (s : State) : (takeInterrupt src s).tsr = s.tsr := by cases src <;> rfl
@[simp] theorem takeInterrupt_rxb (src : Source) (s : State) : (takeInterrupt src s).rxb = s.rxb := by cases src <;> rfl
@[simp] theorem takeInterrupt_phase (src : Source) (s : State) : (takeInterrupt src s).phase = s.phase := by cases src <;> rfl
@[simp] theorem takeInterrupt_hook (src : Source) (s : State) : (takeInterrupt src s).hook = s.hook := by cases src <;> rfl
@[simp] theorem takeInterrupt_host (src : Source) (s : State) : (takeInterrupt src s).host = s.host := by cases src <;> rfl
@[simp] theorem takeInterrupt_txq (src : Source) (s : State) : (takeInterrupt src s).txq = s.txq := by cases src <;> rfl
@[simp] theorem takeInterrupt_rxq (src : Source) (s : State) : (takeInterrupt src s).rxq = s.rxq := by cases src <;> rfl
@[simp] theorem takeInterrupt_txWritten (src : Source) (s : State) : (takeInterrupt src s).txWritten = s.txWritten := by cases src <;> rfl
@[simp] theorem takeInterrupt_txLine (src : Source) (s : State) : (takeInterrupt src s).txLine = s.txLine := by cases src <;> rfl
@[simp] theorem takeInterrupt_rxDropped (src : Source) (s : State) : (takeInterrupt src s).rxDropped = s.rxDropped := by cases src <;> rfl
@[simp] theorem takeInterrupt_fault (src : Source) (s : State) : (takeInterrupt src s).fault = s.fault := by cases src <;> rfl
@[simp] theorem takeInterrupt_params (src : Source) (s : State) : (takeInterrupt src s).params = s.params := by cases src <;> rfl
@[simp] theorem takeInterrupt_result (src : Source) (s : State) : (takeInterrupt src s).result = s.result := by cases src <;> rfl
@[simp] theorem takeInterrupt_draws (src : Source) (s : State) : (takeInterrupt src s).draws = s.draws := by cases src <;> rfl
@[simp] theorem takeInterrupt_drawCount (src : Source) (s : State) : (takeInterrupt src s).drawCount = s.drawCount := by cases src <;> rfl
@[simp] theorem takeInterrupt_agenda (src : Source) (s : State) : (takeInterrupt src s).agenda = s.agenda := by cases src <;> rfl
@[simp] theorem takeInterrupt_txen (src : Source) (s : State) : (takeInterrupt src s).txen = s.txen := by simp [State.txen]
@[simp] theorem takeInterrupt_txcie (src : Source) (s : State) : (takeInterrupt src s).txcie = s.txcie := by simp [State.txcie]
@[simp] theorem takeInterrupt_udrie (src : Source) (s : State) : (takeInterrupt src s).udrie = s.udrie := by simp [State.udrie]
@[simp] theorem takeInterrupt_rxen (src : Source) (s : State) : (takeInterrupt src s).rxen = s.rxen := by simp [State.rxen]
@[simp] theorem takeInterrupt_rxcie (src : Source) (s : State) : (takeInterrupt src s).rxcie = s.rxcie := by simp [State.rxcie]
@[simp] theorem takeInterrupt_csz2 (src : Source) (s : State) : (takeInterrupt src s).csz2 = s.csz2 := by simp [State.csz2]

/-! ### `returnInterrupt` -/

@[simp] theorem returnInterrupt_u2x (s : State) : (returnInterrupt s).u2x = s.u2x := rfl
@[simp] theorem returnInterrupt_txc (s : State) : (returnInterrupt s).txc = s.txc := rfl
@[simp] theorem returnInterrupt_ctrlB (s : State) : (returnInterrupt s).ctrlB = s.ctrlB := rfl
@[simp] theorem returnInterrupt_ctrlC (s : State) : (returnInterrupt s).ctrlC = s.ctrlC := rfl
@[simp] theorem returnInterrupt_baud (s : State) : (returnInterrupt s).baud = s.baud := rfl
@[simp] theorem returnInterrupt_txb (s : State) : (returnInterrupt s).txb = s.txb := rfl
@[simp] theorem returnInterrupt_tsr (s : State) : (returnInterrupt s).tsr = s.tsr := rfl
@[simp] theorem returnInterrupt_rxb (s : State) : (returnInterrupt s).rxb = s.rxb := rfl
@[simp] theorem returnInterrupt_udreReq (s : State) : (returnInterrupt s).udreReq = s.udreReq := rfl
@[simp] theorem returnInterrupt_phase (s : State) : (returnInterrupt s).phase = s.phase := rfl
@[simp] theorem returnInterrupt_hook (s : State) : (returnInterrupt s).hook = s.hook := rfl
@[simp] theorem returnInterrupt_host (s : State) : (returnInterrupt s).host = s.host := rfl
@[simp] theorem returnInterrupt_isr (s : State) : (returnInterrupt s).isr = none := rfl
@[simp] theorem returnInterrupt_txq (s : State) : (returnInterrupt s).txq = s.txq := rfl
@[simp] theorem returnInterrupt_rxq (s : State) : (returnInterrupt s).rxq = s.rxq := rfl
@[simp] theorem returnInterrupt_txWritten (s : State) : (returnInterrupt s).txWritten = s.txWritten := rfl
@[simp] theorem returnInterrupt_txLine (s : State) : (returnInterrupt s).txLine = s.txLine := rfl
@[simp] theorem returnInterrupt_rxDropped (s : State) : (returnInterrupt s).rxDropped = s.rxDropped := rfl
@[simp] theorem returnInterrupt_fault (s : State) : (returnInterrupt s).fault = s.fault := rfl
@[simp] theorem returnInterrupt_params (s : State) : (returnInterrupt s).params = s.params := rfl
@[simp] theorem returnInterrupt_result (s : State) : (returnInterrupt s).result = s.result := rfl
@[simp] theorem returnInterrupt_draws (s : State) : (returnInterrupt s).draws = s.draws := rfl
@[simp] theorem returnInterrupt_drawCount (s : State) : (returnInterrupt s).drawCount = s.drawCount := rfl
@[simp] theorem returnInterrupt_agenda (s : State) : (returnInterrupt s).agenda = s.agenda := rfl
@[simp] theorem returnInterrupt_txen (s : State) : (returnInterrupt s).txen = s.txen := by simp [State.txen]
@[simp] theorem returnInterrupt_txcie (s : State) : (returnInterrupt s).txcie = s.txcie := by simp [State.txcie]
@[simp] theorem returnInterrupt_udrie (s : State) : (returnInterrupt s).udrie = s.udrie := by simp [State.udrie]
@[simp] theorem returnInterrupt_rxen (s : State) : (returnInterrupt s).rxen = s.rxen := by simp [State.rxen]
@[simp] theorem returnInterrupt_rxcie (s : State) : (returnInterrupt s).rxcie = s.rxcie := by simp [State.rxcie]
@[simp] theorem returnInterrupt_csz2 (s : State) : (returnInterrupt s).csz2 = s.csz2 := by simp [State.csz2]

/-! ### `shiftOut` -/

@[simp] theorem shiftOut_u2x (s : State) : (shiftOut s).u2x = s.u2x := by unfold shiftOut; split <;> simp_all
@[simp] theorem shiftOut_ctrlB (s : State) : (shiftOut s).ctrlB = s.ctrlB := by unfold shiftOut; split <;> simp_all
@[simp] theorem shiftOut_ctrlC (s : State) : (shiftOut s).ctrlC = s.ctrlC := by unfold shiftOut; split <;> simp_all
@[simp] theorem shiftOut_baud (s : State) : (shiftOut s).baud = s.baud := by unfold shiftOut; split <;> simp_all
@[simp] theorem shiftOut_txb (s : State) : (shiftOut s).txb = none := by unfold shiftOut; split <;> simp_all
@[simp] theorem shiftOut_rxb (s : State) : (shiftOut s).rxb = s.rxb := by unfold shiftOut; split <;> simp_all
@[simp] theorem shiftOut_phase (s : State) : (shiftOut s).phase = s.phase := by unfold shiftOut; split <;> simp_all
@[simp] theorem shiftOut_hook (s : State) : (shiftOut s).hook = s.hook := by unfold shiftOut; split <;> simp_all
@[simp] theorem shiftOut_host (s : State) : (shiftOut s).host = s.host := by unfold shiftOut; split <;> simp_all
@[simp] theorem shiftOut_isr (s : State) : (shiftOut s).isr = s.isr := by unfold shiftOut; split <;> simp_all
@[simp] theorem shiftOut_txq (s : State) : (shiftOut s).txq = s.txq := by unfold shiftOut; split <;> simp_all
@[simp] theorem shiftOut_rxq (s : State) : (shiftOut s).rxq = s.rxq := by unfold shiftOut; split <;> simp_all
@[simp] theorem shiftOut_txWritten (s : State) : (shiftOut s).txWritten = s.txWritten := by unfold shiftOut; split <;> simp_all
@[simp] theorem shiftOut_txLine (s : State) : (shiftOut s).txLine = s.txLine := by unfold shiftOut; split <;> simp_all
@[simp] theorem shiftOut_rxDropped (s : State) : (shiftOut s).rxDropped = s.rxDropped := by unfold shiftOut; split <;> simp_all
@[simp] theorem shiftOut_fault (s : State) : (shiftOut s).fault = s.fault := by unfold shiftOut; split <;> simp_all
@[simp] theorem shiftOut_params (s : State) : (shiftOut s).params = s.params := by unfold shiftOut; split <;> simp_all
@[simp] theorem shiftOut_result (s : State) : (shiftOut s).result = s.result := by unfold shiftOut; split <;> simp_all
@[simp] theorem shiftOut_draws (s : State) : (shiftOut s).draws = s.draws := by unfold shiftOut; split <;> simp_all
@[simp] theorem shiftOut_drawCount (s : State) : (shiftOut s).drawCount = s.drawCount := by unfold shiftOut; split <;> simp_all
@[simp] theorem shiftOut_agenda (s : State) : (shiftOut s).agenda = s.agenda := by unfold shiftOut; split <;> simp_all
@[simp] theorem shiftOut_txen (s : State) : (shiftOut s).txen = s.txen := by simp [State.txen]
@[simp] theorem shiftOut_txcie (s : State) : (shiftOut s).txcie = s.txcie := by simp [State.txcie]
@[simp] theorem shiftOut_udrie (s : State) : (shiftOut s).udrie = s.udrie := by simp [State.udrie]
@[simp] theorem shiftOut_rxen (s : State) : (shiftOut s).rxen = s.rxen := by simp [State.rxen]
@[simp] theorem shiftOut_rxcie (s : State) : (shiftOut s).rxcie = s.rxcie := by simp [State.rxcie]
@[simp] theorem shiftOut_csz2 (s : State) : (shiftOut s).csz2 = s.csz2 := by simp [State.csz2]

/-! ### `confEffect` -/

@[simp] theorem confEffect_txc (k : ConfStep) (cfg : Cfg) (s : State) : (confEffect k cfg s).txc = s.txc := by cases k <;> simp [confEffect]
@[simp] theorem confEffect_phase (k : ConfStep) (cfg : Cfg) (s : State) : (confEffect k cfg s).phase = s.phase := by cases k <;> simp [confEffect]
@[simp] theorem confEffect_host (k : ConfStep) (cfg : Cfg) (s : State) : (confEffect k cfg s).host = s.host := by cases k <;> simp [confEffect]
@[simp] theorem confEffect_isr (k : ConfStep) (cfg : Cfg) (s : State) : (confEffect k cfg s).isr = s.isr := by cases k <;> simp [confEffect]
@[simp] theorem confEffect_txq (k : ConfStep) (cfg : Cfg) (s : State) : (confEffect k cfg s).txq = s.txq := by cases k <;> simp [confEffect]
@[simp] theorem confEffect_rxq (k : ConfStep) (cfg : Cfg) (s : State) : (confEffect k cfg s).rxq = s.rxq := by cases k <;> simp [confEffect]
@[simp] theorem confEffect_txWritten (k : ConfStep) (cfg : Cfg) (s : State) : (confEffect k cfg s).txWritten = s.txWritten := by cases k <;> simp [confEffect]
@[simp] theorem confEffect_txLine (k : ConfStep) (cfg : Cfg) (s : State) : (confEffect k cfg s).txLine = s.txLine := by cases k <;> simp [confEffect]
@[simp] theorem confEffect_rxDropped (k : ConfStep) (cfg : Cfg) (s : State) : (confEffect k cfg s).rxDropped = s.rxDropped := by cases k <;> simp [confEffect]
@[simp] theorem confEffect_fault (k : ConfStep) (cfg : Cfg) (s : State) : (confEffect k cfg s).fault = s.fault := by cases k <;> simp [confEffect]
@[simp] theorem confEffect_params (k : ConfStep) (cfg : Cfg) (s : State) : (confEffect k cfg s).params = s.params := by cases k <;> simp [confEffect]
@[simp] theorem confEffect_result (k : ConfStep) (cfg : Cfg) (s : State) : (confEffect k cfg s).result = s.result := by cases k <;> simp [confEffect]
@[simp] theorem confEffect_agenda (k : ConfStep) (cfg : Cfg) (s : State) : (confEffect k cfg s).agenda = s.agenda := by cases k <;> simp [confEffect]

end Machine
end Sys2Proof
end

