-- ==== Sys2Proof/Laws/Ops.lean ====
section
/-! SUPPORT. What each shared operation does, said once: the queue contract, the register images and the bits they
set, the register writes, the data register, loss at a disable. -/

namespace Sys2Proof
namespace Machine

/-! ## The queue contract (R74, R75) -/

@[simp] theorem tryPop_nil : tryPop [] = (none, []) := rfl
@[simp] theorem tryPop_cons (b : Byte) (q : List Byte) : tryPop (b :: q) = (some b, q) := rfl

/-- A pop moves the head of the queue into its result, and nothing else (R74). -/
theorem tryPop_conserves (q : List Byte) : (tryPop q).1.toList ++ (tryPop q).2 = q := by
  cases q <;> rfl

theorem tryPush_room {cap : Nat} {q : List Byte} (b : Byte) (h : q.length < cap) :
    tryPush cap q b = some (q ++ [b]) := by simp [tryPush, h]

theorem tryPush_full {cap : Nat} {q : List Byte} (b : Byte) (h : cap ≤ q.length) :
    tryPush cap q b = none := by simp [tryPush, h]

/-- What a push answers (R75). -/
theorem tryPush_eq_some {cap : Nat} {q q' : List Byte} {b : Byte} :
    tryPush cap q b = some q' ↔ q.length < cap ∧ q' = q ++ [b] := by
  unfold tryPush; split <;> simp_all [eq_comm]

theorem tryPush_eq_none {cap : Nat} {q : List Byte} {b : Byte} :
    tryPush cap q b = none ↔ cap ≤ q.length := by
  unfold tryPush; split <;> simp_all

/-! ## The images (R97, R98) -/

/-- The format-only image sets no enable (R162). -/
theorem imgB0Of_eq (z : Bool) : imgB0Of z = if z then 0x04#8 else 0x00#8 := by cases z <;> decide

/-- The enable image, as the or of its parts (R165). -/
theorem imgB1Of_eq (r t z : Bool) :
    imgB1Of r t z =
      (if r then 0x90#8 else 0x00#8) ||| (if t then 0x68#8 else 0x00#8) ||| (if z then 0x04#8 else 0x00#8) := by
  cases r <;> cases t <;> cases z <;> decide

theorem imgB0Of_and (z : Bool) : imgB0Of z &&& 0xFC#8 = imgB0Of z := by cases z <;> decide

theorem imgB1Of_and (r t z : Bool) : imgB1Of r t z &&& 0xFC#8 = imgB1Of r t z := by
  cases r <;> cases t <;> cases z <;> decide

/-- The bits the enable image sets (R165). -/
theorem imgB1Of_bits (r t z : Bool) :
    (imgB1Of r t z).getLsbD 7 = r ∧ (imgB1Of r t z).getLsbD 6 = t ∧ (imgB1Of r t z).getLsbD 5 = t ∧
    (imgB1Of r t z).getLsbD 4 = r ∧ (imgB1Of r t z).getLsbD 3 = t ∧ (imgB1Of r t z).getLsbD 2 = z ∧
    imgB1Of r t z &&& 0x03#8 = 0#8 := by
  cases r <;> cases t <;> cases z <;> decide

theorem imgAOf_eq (d : Bool) : imgAOf d = if d then 0x02#8 else 0x00#8 := by cases d <;> decide

/-! ## Register writes -/

/-- The kick sets `txc` and nothing else (R181, R67). -/
theorem kick_eq (s : State) : kick s = { s with txc := true } := by
  have h1 : (s.ctrlA ||| 0x40#8).getLsbD 1 = s.u2x := by
    simp only [State.ctrlA]
    cases s.rxc <;> cases s.txc <;> cases s.udre <;> cases s.u2x <;> decide
  have h6 : (s.ctrlA ||| 0x40#8).getLsbD 6 = true := by
    simp only [State.ctrlA]
    cases s.rxc <;> cases s.txc <;> cases s.udre <;> cases s.u2x <;> decide
  unfold kick writeCtrlA
  rw [h1, h6]
  simp [garble]

/-- The draw a disable write uses comes from the state's list or from the free value; only the model's own fields
change. -/
theorem takeDraw_state (s : State) :
    ∃ ds n, (takeDraw s).2 = { s with draws := ds, drawCount := n } := by
  unfold takeDraw; split <;> exact ⟨_, _, rfl⟩

/-- Garbling touches the frame in the shift register and nothing else (R173). -/
theorem garble_eq (c : Bool) (s : State) :
    garble c s = { s with tsr := s.tsr.map fun fr => { fr with garbled := fr.garbled || c } } := by
  cases c
  · simp [garble]
  · simp [garble]

/-- What waits above an empty shift register is absorbed; afterwards nothing waits there (R43 (ii)). -/
theorem absorbWaiting_cases (s : State) :
    (∃ b, s.tsr = none ∧ s.txb = some b ∧ absorbWaiting s = absorb b { s with txb := none }) ∨
    ((s.tsr ≠ none ∨ s.txb = none) ∧ absorbWaiting s = s) := by
  unfold absorbWaiting
  cases h : s.tsr <;> cases h' : s.txb <;> simp_all

/-- The losses of a disable write, for the draw `d` it takes (R172): some draw, after which either nothing happens to
the transmitter, or its latches are emptied as drawn and a waiting byte is absorbed; and the input register likewise. -/
theorem disableLoss_cases (a c : Bool) (s : State) :
    ∃ d ds n, disableLoss a c s =
      (let s := { s with draws := ds, drawCount := n }
       let s := if a then loseTx d s else s
       if c then loseRx d s else s) := by
  cases a <;> cases c
  · exact ⟨default, s.draws, s.drawCount, rfl⟩
  all_goals
    obtain ⟨ds, n, h⟩ := takeDraw_state s
    exact ⟨(takeDraw s).1, ds, n, by simp [disableLoss, h]⟩

/-! ## The data register -/

/-- What a write to `DATA` does (R187, U4). -/
theorem dataWrite_cases (b : Byte) (s : State) :
    (s.txen = false ∧ dataWrite b s = .error .dataWriteDisabled) ∨
    (s.txen = true ∧ s.txb ≠ none ∧
      dataWrite b s = .ok { s with
        txWritten := s.txWritten ++ [b], udreReq := false, fault := { s.fault with txOverrun := true } }) ∨
    (s.txen = true ∧ s.txb = none ∧ s.tsr = none ∧
      dataWrite b s = .ok { s with
        txWritten := s.txWritten ++ [b], udreReq := true
        tsr := some { byte := b, fmt := s.fmt, garbled := false } }) ∨
    (s.txen = true ∧ s.txb = none ∧ (∃ fr, s.tsr = some fr) ∧
      dataWrite b s = .ok { s with txWritten := s.txWritten ++ [b], udreReq := false, txb := some b }) := by
  unfold dataWrite
  cases h : s.txen <;> cases h1 : s.txb <;> cases h2 : s.tsr <;>
    simp [recordFault, absorb, State.fmt, State.csz2, *]

/-- What a read of `DATA` does (R213, U3). -/
theorem dataRead_cases (s : State) :
    (s.rxb = none ∧ dataRead s = .error .dataReadEmpty) ∨
    (∃ b, s.rxb = some b ∧ dataRead s = .ok (b, { s with rxb := none })) := by
  unfold dataRead
  cases h : s.rxb <;> simp

end Machine
end Sys2Proof
end

