-- ==== Sys2Proof/Laws/Move.lean ====
section
/-! SUPPORT. Everything a step can do, said once: an operation that answers a next state made one of the moves below.
Proofs about all operations take the moves one by one and unfold no meaning. -/

namespace Sys2Proof
namespace Machine

/-- The operations that take the pump's steps inside `ISR_TXC`. -/
def PumpsTxc (i : Instr) : Prop := i = .pump ∨ i = .isrTxc

/-- The operations that take the pump's steps inside `ISR_UDRE`. -/
def PumpsUdre (i : Instr) : Prop := i = .pump ∨ i = .isrUdre

/-- A transmit handler stands before its write with `r` popped, and `i` takes its steps. -/
def BeforeWrite (i : Instr) (s : State) (r : Option Byte) : Prop :=
  (s.isr = some (.txc2 r) ∧ PumpsTxc i) ∨ (s.isr = some (.udre2 r) ∧ PumpsUdre i)

/-- The atomic steps, each with its guard and its effect. -/
inductive Move : Instr → State → State → Prop where
  /-- A pure operation, an operation that does not happen, or one that only reports. -/
  | quiet (i : Instr) (s : State) (r : OpResult) : Move i s (s.ret r)
  | reset (s : State) : Move .reset s ((resetBlock s).ret .none)
  | configure (d : Word) (ds : Bool) (ff : Half) (rx tx : Bool) (k : ConfStep) (cfg : Cfg) (r : OpResult)
      (s : State) (main : s.isr = none)
      (at_k : (s.host = none ∧ k = .c1) ∨ s.host = some (.configure k cfg)) :
      Move (.configure d ds ff rx tx) s
        (State.ret { confEffect k cfg s with host := (nextConfStep k).map fun k' => .configure k' cfg } r)
  | initStart (baud : Word) (mode : Half) (d : Nat) (ds : Bool) (cfg : Cfg) (s : State) (main : s.isr = none)
      (free : s.host = none) (sel : selectBaud s.params.clockHz.toNat baud.toNat = some (d, ds))
      (div : cfg.divisor = BitVec.ofNat 32 d) :
      Move (.init baud mode) s
        (State.ret { s with phase := .configuring, host := some (.init .c1 cfg) } .pending)
  | initStep (baud : Word) (mode : Half) (k : ConfStep) (cfg : Cfg) (r : OpResult) (s : State)
      (main : s.isr = none) (at_k : s.host = some (.init k cfg)) :
      Move (.init baud mode) s
        (State.ret { confEffect k cfg s with
          host := (nextConfStep k).map fun k' => .init k' cfg
          phase := if k = .c7 then .operational else (confEffect k cfg s).phase } r)
  | disable (s : State) (main : s.isr = none) (free : s.host = none) :
      Move .hostDisable s ((writeCtrlB 0x00#8 s).ret .none)
  | push (b : Byte) (r : OpResult) (s : State) (main : s.isr = none) (free : s.host = none)
      (room : s.txq.length < s.params.txCap) :
      Move (.hostEnqueue b) s
        (State.ret { s with txq := s.txq ++ [b], host := if s.hook then some .enqueue2 else none } r)
  | kick (i : Instr) (r : OpResult) (s : State) (main : s.isr = none)
      (pushed : s.host = some .enqueue2) (who : i = .txkick ∨ ∃ b, i = .hostEnqueue b) :
      Move i s (State.ret { s with txc := true, host := none } r)
  | dequeue (b : Byte) (rest : List Byte) (s : State) (main : s.isr = none) (free : s.host = none)
      (front : s.rxq = b :: rest) :
      Move .hostDequeue s (State.ret { s with rxq := rest } (.popped (some b)))
  | enterRxc (s : State) (en : s.entryEnabled .rxc = true) :
      Move .isrRxc s (State.ret { s with isr := some .rxc1 } .none)
  | enterUdre (s : State) (en : s.entryEnabled .udre = true) :
      Move .isrUdre s (State.ret { s with udreReq := false, isr := some .udre1 } .none)
  | enterTxc (s : State) (en : s.entryEnabled .txc = true) :
      Move .isrTxc s (State.ret { s with txc := false, isr := some .txc1 } .none)
  | popTxc (i : Instr) (s : State) (who : PumpsTxc i) (at_p1 : s.isr = some .txc1) :
      Move i s (State.ret { s with txq := (tryPop s.txq).2, isr := some (.txc2 (tryPop s.txq).1) } .none)
  | popUdre (i : Instr) (s : State) (who : PumpsUdre i) (at_p1 : s.isr = some .udre1) :
      Move i s (State.ret { s with txq := (tryPop s.txq).2, isr := some (.udre2 (tryPop s.txq).1) } .none)
  | pumpEmpty (i : Instr) (s : State) (at_p2 : BeforeWrite i s none) :
      Move i s (State.ret { s with isr := none } .none)
  | writeOverrun (i : Instr) (b : Byte) (s : State) (at_p2 : BeforeWrite i s (some b)) (on : s.txen = true)
      (full : s.txb ≠ none) :
      Move i s (State.ret { s with
        txWritten := s.txWritten ++ [b], udreReq := false, fault := { s.fault with txOverrun := true }
        isr := none } .none)
  | writeIdle (i : Instr) (b : Byte) (s : State) (at_p2 : BeforeWrite i s (some b)) (on : s.txen = true)
      (room : s.txb = none) (idle : s.tsr = none) :
      Move i s (State.ret { s with
        txWritten := s.txWritten ++ [b], udreReq := true
        tsr := some { byte := b, fmt := s.fmt, garbled := false }, isr := none } .none)
  | writeBehind (i : Instr) (b : Byte) (fr : TxFrame) (s : State) (at_p2 : BeforeWrite i s (some b))
      (on : s.txen = true) (room : s.txb = none) (busy : s.tsr = some fr) :
      Move i s (State.ret { s with
        txWritten := s.txWritten ++ [b], udreReq := false, txb := some b, isr := none } .none)
  | txDoneNext (fr : TxFrame) (b : Byte) (s : State) (busy : s.tsr = some fr) (waits : s.txb = some b) :
      Move .hwTxDone s (State.ret { s with
        txLine := s.txLine ++ [lineRecord fr], tsr := some { byte := b, fmt := s.fmt, garbled := false }
        txb := none, udreReq := true } .none)
  | txDoneIdle (fr : TxFrame) (s : State) (busy : s.tsr = some fr) (none_waits : s.txb = none) :
      Move .hwTxDone s (State.ret { s with txLine := s.txLine ++ [lineRecord fr], tsr := none, txc := true } .none)
  | rxTake (b : Byte) (s : State) (on : s.rxen = true) (room : s.rxb = none) :
      Move (.hwRxFrame b) s (State.ret { s with rxb := some b } .none)
  | rxOverrun (b : Byte) (s : State) (on : s.rxen = true) (full : s.rxb ≠ none) :
      Move (.hwRxFrame b) s (State.ret { s with fault := { s.fault with rxOverrun := true } } .none)
  | rxRead (b : Byte) (s : State) (at_x1 : s.isr = some .rxc1) (there : s.rxb = some b) :
      Move .isrRxc s (State.ret { s with rxb := none, isr := some (.rxc2 b) } .none)
  | rxPush (b : Byte) (s : State) (at_x2 : s.isr = some (.rxc2 b)) (room : s.rxq.length < s.params.rxCap) :
      Move .isrRxc s (State.ret { s with rxq := s.rxq ++ [b], isr := none } .none)
  | rxDrop (b : Byte) (s : State) (at_x2 : s.isr = some (.rxc2 b)) (full : s.params.rxCap ≤ s.rxq.length) :
      Move .isrRxc s (State.ret { s with rxDropped := s.rxDropped + 1, isr := none } .none)

/-! ## Outcomes -/

@[simp] theorem done_eq_next {s t : State} {r : OpResult} : done s r = .next t ↔ t = s.ret r := by
  simp [done, eq_comm]

@[simp] theorem blocked_eq_next {s t : State} : blocked s = .next t ↔ t = s.ret .blocked := by
  simp [blocked]

theorem inMain_eq_true {s : State} : s.inMain = true ↔ s.isr = none := by
  simp [State.inMain]

/-! ## The moves of each operation -/

theorem move_execConfigure {d : Word} {ds : Bool} {ff : Half} {rx tx : Bool} {s t : State}
    (h : execConfigure d ds ff rx tx s = .next t) : Move (.configure d ds ff rx tx) s t := by
  have key : ∀ k cfg, s.isr = none → ((s.host = none ∧ k = .c1) ∨ s.host = some (.configure k cfg)) →
      configureStep k cfg s = .next t → Move (.configure d ds ff rx tx) s t := by
    intro k cfg main at_k h
    cases k <;> simp only [configureStep, nextConfStep, done_eq_next] at h <;> subst h <;>
      exact .configure d ds ff rx tx _ cfg _ s main at_k
  unfold execConfigure at h
  split at h
  · rename_i main
    rw [inMain_eq_true] at main
    split at h
    · exact key _ _ main (.inl ⟨by assumption, rfl⟩) h
    · exact key _ _ main (.inr (by assumption)) h
    all_goals rw [blocked_eq_next] at h; subst h; exact .quiet _ _ _
  · rw [blocked_eq_next] at h; subst h; exact .quiet _ _ _

theorem move_execInit {baud : Word} {mode : Half} {s t : State}
    (h : execInit baud mode s = .next t) : Move (.init baud mode) s t := by
  unfold execInit at h
  split at h
  · rename_i main
    rw [inMain_eq_true] at main
    split at h
    · rename_i free
      unfold initStart at h
      split at h
      · rw [done_eq_next] at h; subst h; exact .quiet _ _ _
      · rename_i sel
        rw [done_eq_next] at h
        subst h
        exact .initStart baud mode _ _ _ s main free sel rfl
    · rename_i k cfg at_k
      have := Move.initStep baud mode k cfg
      cases k <;> simp only [initStep, nextConfStep, done_eq_next] at h <;> subst h <;>
        exact this _ s main at_k
    all_goals rw [blocked_eq_next] at h; subst h; exact .quiet _ _ _
  · rw [blocked_eq_next] at h; subst h; exact .quiet _ _ _

theorem move_execHostDisable {s t : State} (h : execHostDisable s = .next t) : Move .hostDisable s t := by
  unfold execHostDisable at h
  split at h
  · rename_i g
    simp only [State.inMain, Bool.and_eq_true, Option.isNone_iff_eq_none] at g
    rw [done_eq_next] at h; subst h
    exact .disable s g.1 g.2
  · rw [blocked_eq_next] at h; subst h; exact .quiet _ _ _

theorem move_enqueueKick {i : Instr} {s t : State} (main : s.isr = none)
    (pushed : s.host = some .enqueue2) (who : i = .txkick ∨ ∃ b, i = .hostEnqueue b)
    (h : enqueueKick s = .next t) : Move i s t := by
  simp only [enqueueKick, kick_eq, done_eq_next] at h
  subst h
  exact .kick i _ s main pushed who

theorem move_execHostEnqueue {b : Byte} {s t : State} (h : execHostEnqueue b s = .next t) :
    Move (.hostEnqueue b) s t := by
  unfold execHostEnqueue at h
  split at h
  · rename_i main
    rw [inMain_eq_true] at main
    split at h
    · rename_i free
      unfold enqueuePush at h
      split at h
      · rw [done_eq_next] at h; subst h; exact .quiet _ _ _
      · rename_i q pushed
        obtain ⟨room, rfl⟩ := tryPush_eq_some.mp pushed
        have := fun r => Move.push b r s main free room
        split at h <;> simp only [done_eq_next] at h <;> subst h <;> simp_all
    · exact move_enqueueKick main (by assumption) (.inr ⟨b, rfl⟩) h
    all_goals rw [blocked_eq_next] at h; subst h; exact .quiet _ _ _
  · rw [blocked_eq_next] at h; subst h; exact .quiet _ _ _

theorem move_execTxkick {s t : State} (h : execTxkick s = .next t) : Move .txkick s t := by
  unfold execTxkick at h
  split at h
  · rename_i main
    rw [inMain_eq_true] at main
    split at h
    · exact move_enqueueKick main (by assumption) (.inl rfl) h
    all_goals rw [blocked_eq_next] at h; subst h; exact .quiet _ _ _
  · rw [blocked_eq_next] at h; subst h; exact .quiet _ _ _

theorem move_execHostDequeue {s t : State} (h : execHostDequeue s = .next t) : Move .hostDequeue s t := by
  unfold execHostDequeue at h
  split at h
  · rename_i g
    simp only [State.inMain, Bool.and_eq_true, Option.isNone_iff_eq_none] at g
    cases q : s.rxq with
    | nil =>
      simp only [q, tryPop_nil, done_eq_next] at h
      have := Move.quiet .hostDequeue s (.popped none)
      subst h
      simpa [State.ret, q] using this
    | cons b rest =>
      simp only [q, tryPop_cons, done_eq_next] at h
      subst h
      exact .dequeue b rest s g.1 g.2 q
  · rw [blocked_eq_next] at h; subst h; exact .quiet _ _ _

theorem move_pumpStep {i : Instr} {s t : State}
    (who : ∀ p, s.isr = some p → (p = .txc1 ∨ ∃ r, p = .txc2 r) → PumpsTxc i)
    (who' : ∀ p, s.isr = some p → (p = .udre1 ∨ ∃ r, p = .udre2 r) → PumpsUdre i)
    (h : pumpStep s = .next t) : Move i s t := by
  have write : ∀ r, BeforeWrite i s r → pumpWrite r s = .next t → Move i s t := by
    intro r at_p2 h
    cases r with
    | none =>
      simp only [pumpWrite, done_eq_next] at h; subst h
      exact .pumpEmpty i s at_p2
    | some b =>
      rcases dataWrite_cases b s with ⟨_, e⟩ | ⟨on, full, e⟩ | ⟨on, room, idle, e⟩ | ⟨on, room, ⟨fr, busy⟩, e⟩ <;>
        simp only [pumpWrite, e, done_eq_next, reduceCtorEq] at h <;> subst h
      · exact .writeOverrun i b s at_p2 on full
      · exact .writeIdle i b s at_p2 on room idle
      · exact .writeBehind i b fr s at_p2 on room busy
  unfold pumpStep at h
  split at h
  · simp only [pumpPop, done_eq_next] at h; subst h
    exact .popTxc i s (who _ (by assumption) (.inl rfl)) (by assumption)
  · simp only [pumpPop, done_eq_next] at h; subst h
    exact .popUdre i s (who' _ (by assumption) (.inl rfl)) (by assumption)
  · exact write _ (.inl ⟨by assumption, who _ (by assumption) (.inr ⟨_, rfl⟩)⟩) h
  · exact write _ (.inr ⟨by assumption, who' _ (by assumption) (.inr ⟨_, rfl⟩)⟩) h
  all_goals rw [blocked_eq_next] at h; subst h; exact .quiet _ _ _

theorem move_execIsrTxc {s t : State} (h : execIsrTxc s = .next t) : Move .isrTxc s t := by
  unfold execIsrTxc at h
  split at h
  · unfold enterHandler at h
    split at h
    · rw [done_eq_next] at h; subst h; exact .enterTxc s (by assumption)
    · rw [blocked_eq_next] at h; subst h; exact .quiet _ _ _
  · exact move_pumpStep (fun _ _ _ => .inr rfl) (by simp_all) h
  · exact move_pumpStep (fun _ _ _ => .inr rfl) (by simp_all) h
  all_goals rw [blocked_eq_next] at h; subst h; exact .quiet _ _ _

theorem move_execIsrUdre {s t : State} (h : execIsrUdre s = .next t) : Move .isrUdre s t := by
  unfold execIsrUdre at h
  split at h
  · unfold enterHandler at h
    split at h
    · rw [done_eq_next] at h; subst h; exact .enterUdre s (by assumption)
    · rw [blocked_eq_next] at h; subst h; exact .quiet _ _ _
  · exact move_pumpStep (by simp_all) (fun _ _ _ => .inr rfl) h
  · exact move_pumpStep (by simp_all) (fun _ _ _ => .inr rfl) h
  all_goals rw [blocked_eq_next] at h; subst h; exact .quiet _ _ _

theorem move_execHwTxDone {s t : State} (h : execHwTxDone s = .next t) : Move .hwTxDone s t := by
  unfold execHwTxDone at h
  split at h
  · rename_i fr busy
    rw [done_eq_next] at h
    subst h
    cases w : s.txb with
    | some b =>
      have := Move.txDoneNext fr b s busy w
      simpa [shiftOut, w, absorb, State.fmt, State.csz2] using this
    | none =>
      have := Move.txDoneIdle fr s busy w
      simpa [shiftOut, w] using this
  · rw [blocked_eq_next] at h; subst h; exact .quiet _ _ _

theorem move_execHwRxFrame {b : Byte} {s t : State} (h : execHwRxFrame b s = .next t) :
    Move (.hwRxFrame b) s t := by
  unfold execHwRxFrame at h
  split at h
  · rename_i g
    rw [Bool.and_eq_true] at g
    split at h <;> rw [done_eq_next] at h <;> subst h
    · exact .rxOverrun b s g.1 (by simp_all)
    · exact .rxTake b s g.1 (by assumption)
  · rw [blocked_eq_next] at h; subst h; exact .quiet _ _ _

theorem move_execIsrRxc {s t : State} (h : execIsrRxc s = .next t) : Move .isrRxc s t := by
  unfold execIsrRxc at h
  split at h
  · unfold enterHandler at h
    split at h
    · rw [done_eq_next] at h; subst h; exact .enterRxc s (by assumption)
    · rw [blocked_eq_next] at h; subst h; exact .quiet _ _ _
  · rcases dataRead_cases s with ⟨_, e⟩ | ⟨b, there, e⟩ <;>
      simp only [rxcRead, e, done_eq_next, reduceCtorEq] at h
    subst h
    exact .rxRead b s (by assumption) there
  · rename_i b at_x2
    unfold rxcPush at h
    split at h <;> rw [done_eq_next] at h <;> subst h
    · rename_i q pushed
      obtain ⟨room, rfl⟩ := tryPush_eq_some.mp pushed
      exact .rxPush b s at_x2 room
    · exact .rxDrop b s at_x2 (tryPush_eq_none.mp (by assumption))
  all_goals rw [blocked_eq_next] at h; subst h; exact .quiet _ _ _

/-- Whatever operation answers a next state, it made one of the moves. -/
theorem exec_move {i : Instr} {s t : State} (h : exec i s = .next t) : Move i s t := by
  cases i <;> simp only [exec] at h
  case reset => rw [execReset, done_eq_next] at h; subst h; exact .reset s
  case configure => exact move_execConfigure h
  case init => exact move_execInit h
  case hostDisable => exact move_execHostDisable h
  case hostEnqueue => exact move_execHostEnqueue h
  case txkick => exact move_execTxkick h
  case hostDequeue => exact move_execHostDequeue h
  case isrRxc => exact move_execIsrRxc h
  case isrUdre => exact move_execIsrUdre h
  case isrTxc => exact move_execIsrTxc h
  case pump => exact move_pumpStep (fun _ _ _ => .inl rfl) (fun _ _ _ => .inl rfl) h
  case hwTxDone => exact move_execHwTxDone h
  case hwRxFrame => exact move_execHwRxFrame h
  all_goals
    simp only [execSelectBaud, execEncodeFrame, execMode, execImgA, execImgB0, execImgB1, execImgC,
      done_eq_next] at h
    subst h
    exact .quiet _ _ _

end Machine
end Sys2Proof
end

