-- ==== Sys2Proof/Laws/Loss.lean ====
section
/-! SUPPORT. What a register write does to the bytes in the hardware (R172, R173): it loses some or none and reorders
none, and it keeps the two facts R43 states about the latches. -/

namespace Sys2Proof
namespace Machine

theorem toList_filter_sublist {α : Type} (o : Option α) (p : α → Bool) :
    (o.filter p).toList.Sublist o.toList := by
  cases o <;> simp

/-- A disable of the transmitter loses bytes of the hardware and reorders none. -/
theorem loseTx_inHardware (d : LossDraw) (s : State) : (loseTx d s).inHardware.Sublist s.inHardware := by
  unfold loseTx
  rcases absorbWaiting_cases
      { s with tsr := s.tsr.filter fun _ => !d.loseTsr, txb := s.txb.filter fun _ => !d.loseTxb }
    with ⟨b, h1, h2, e⟩ | ⟨_, e⟩ <;> rw [e]
  · have hb : s.txb = some b := by
      cases hb : s.txb <;> simp_all [Option.filter]
    simp [State.inHardware, hb]
  · refine List.Sublist.append ?_ (toList_filter_sublist _ _)
    cases h : s.tsr <;> cases d.loseTsr <;> simp [Option.filter]

@[simp] theorem loseRx_inHardware (d : LossDraw) (s : State) : (loseRx d s).inHardware = s.inHardware := rfl

theorem disableLoss_inHardware (a c : Bool) (s : State) : (disableLoss a c s).inHardware.Sublist s.inHardware := by
  obtain ⟨d, ds, n, e⟩ := disableLoss_cases a c s
  rw [e]
  have := loseTx_inHardware d { s with draws := ds, drawCount := n }
  cases a <;> cases c <;> simp only [Bool.false_eq_true, if_true, if_false, loseRx_inHardware] <;>
    first | exact this | exact List.Sublist.refl _

theorem writeCtrlB_inHardware (v : Byte) (s : State) : (writeCtrlB v s).inHardware.Sublist s.inHardware := by
  refine (disableLoss_inHardware _ _ _).trans ?_
  simp [State.inHardware, Option.map_map, Function.comp_def]

/-- No configuration step adds or reorders bytes of the hardware. -/
theorem confEffect_inHardware (k : ConfStep) (cfg : Cfg) (s : State) :
    (confEffect k cfg s).inHardware.Sublist s.inHardware := by
  cases k <;> simp only [confEffect, writeCtrlB_inHardware] <;>
    simp [State.inHardware, Option.map_map, Function.comp_def]

/-- The two facts R43 (i) and (ii) states about the latches. -/
def LatchFacts (s : State) : Prop :=
  (s.udreReq = true → s.txb = none) ∧ (s.txb ≠ none → s.tsr ≠ none)

theorem loseTx_latchFacts (d : LossDraw) (s : State) (h : LatchFacts s) : LatchFacts (loseTx d s) := by
  unfold loseTx
  rcases absorbWaiting_cases
      { s with tsr := s.tsr.filter fun _ => !d.loseTsr, txb := s.txb.filter fun _ => !d.loseTxb }
    with ⟨b, h1, h2, e⟩ | ⟨g, e⟩ <;> rw [e]
  · simp [LatchFacts]
  · refine ⟨fun hu => ?_, fun hb => ?_⟩
    · simp only [h.1 hu]; rfl
    · simpa [hb] using g

theorem disableLoss_latchFacts (a c : Bool) (s : State) (h : LatchFacts s) : LatchFacts (disableLoss a c s) := by
  obtain ⟨d, ds, n, e⟩ := disableLoss_cases a c s
  rw [e]
  have h' := loseTx_latchFacts d { s with draws := ds, drawCount := n } h
  cases a <;> cases c <;> first | exact h | exact h'

theorem writeCtrlB_latchFacts (v : Byte) (s : State) (h : LatchFacts s) : LatchFacts (writeCtrlB v s) := by
  refine disableLoss_latchFacts _ _ _ ?_
  simpa [LatchFacts] using h

theorem confEffect_latchFacts (k : ConfStep) (cfg : Cfg) (s : State) (h : LatchFacts s) :
    LatchFacts (confEffect k cfg s) := by
  cases k <;> simp only [confEffect, writeCtrlB_latchFacts _ _ h] <;> simpa [LatchFacts] using h

/-- A write that turns nothing off loses nothing and draws nothing. -/
@[simp] theorem disableLoss_off (s : State) : disableLoss false false s = s := rfl

/-- The input register after a loss: kept or emptied (R172). -/
theorem disableLoss_rxb (a c : Bool) (s : State) :
    (disableLoss a c s).rxb = s.rxb ∨ (c = true ∧ (disableLoss a c s).rxb = none) := by
  obtain ⟨d, ds, n, e⟩ := disableLoss_cases a c s
  rw [e]
  cases a <;> cases c <;> simp [loseRx, loseTx] <;> cases s.rxb <;> cases d.loseRxb <;> simp [Option.filter]

/-- A disable lowers no data-register-empty request (R172: `udre_req` is not changed by the draw). -/
theorem disableLoss_keeps_udreReq (a c : Bool) (s : State) (h : s.udreReq = true) :
    (disableLoss a c s).udreReq = true := by
  obtain ⟨d, ds, n, e⟩ := disableLoss_cases a c s
  rw [e]
  have key : (loseTx d { s with draws := ds, drawCount := n }).udreReq = true := by
    unfold loseTx
    rcases absorbWaiting_cases
        { s with
          draws := ds, drawCount := n
          tsr := s.tsr.filter fun _ => !d.loseTsr, txb := s.txb.filter fun _ => !d.loseTxb }
      with ⟨b, _, _, e⟩ | ⟨_, e⟩ <;> rw [e] <;> simp [h]
  cases a <;> cases c <;> simp only [Bool.false_eq_true, if_true, if_false, loseRx] <;>
    first | exact key | exact h

/-- A disable raises the request only by absorbing the waiting byte (R172). -/
theorem disableLoss_raises_udreReq (a c : Bool) (s : State) (h : s.udreReq = false)
    (h' : (disableLoss a c s).udreReq = true) :
    (disableLoss a c s).txb = none ∧
      ∃ b, (disableLoss a c s).tsr = some { byte := b, fmt := s.fmt, garbled := false } ∧ s.txb = some b := by
  obtain ⟨d, ds, n, e⟩ := disableLoss_cases a c s
  rw [e] at h' ⊢
  have key : (loseTx d { s with draws := ds, drawCount := n }).udreReq = true →
      (loseTx d { s with draws := ds, drawCount := n }).txb = none ∧
        ∃ b, (loseTx d { s with draws := ds, drawCount := n }).tsr =
          some { byte := b, fmt := s.fmt, garbled := false } ∧ s.txb = some b := by
    unfold loseTx
    intro h'
    rcases absorbWaiting_cases
        { s with
          draws := ds, drawCount := n
          tsr := s.tsr.filter fun _ => !d.loseTsr, txb := s.txb.filter fun _ => !d.loseTxb }
      with ⟨b, h1, h2, e⟩ | ⟨_, e⟩ <;> rw [e] at h' ⊢
    · have hb : s.txb = some b := by cases hb : s.txb <;> simp_all [Option.filter]
      exact ⟨rfl, b, rfl, hb⟩
    · simp_all
  cases a <;> cases c <;> simp_all [loseRx]

/-- A write of `CTRLB` keeps the input register, or turns the receiver off and empties it (R172). -/
theorem writeCtrlB_rxb (v : Byte) (s : State) :
    (writeCtrlB v s).rxb = s.rxb ∨
      (s.rxen = true ∧ (writeCtrlB v s).rxen = false ∧ (writeCtrlB v s).rxb = none) := by
  rcases disableLoss_rxb (s.txen && !v.getLsbD 3) (s.rxen && !v.getLsbD 4)
    (garble (v.getLsbD 2 != s.csz2) { s with ctrlB := v &&& 0xFC#8 }) with h | ⟨h1, h2⟩
  · left
    simpa [writeCtrlB] using h
  · right
    refine ⟨by simp_all, ?_, h2⟩
    simp at h1
    simp [State.rxen, h1]

/-- No configuration step lowers the data-register-empty request. -/
theorem confEffect_keeps_udreReq (k : ConfStep) (cfg : Cfg) (s : State) (h : s.udreReq = true) :
    (confEffect k cfg s).udreReq = true := by
  have key : ∀ v, (writeCtrlB v s).udreReq = true :=
    fun v => disableLoss_keeps_udreReq _ _ _ (by simpa using h)
  cases k <;> simp [confEffect, h, key]

end Machine
end Sys2Proof
end

