-- ==== Sys2Proof/Laws/PerInstr.lean ====
section
/-! SUPPORT. Per-instruction families. `Selector`: the low four bits of an encoded operation are its selector number
(R101). -/

namespace Sys2Proof
namespace Laws
namespace Selector

def Statement (i : Instr) : Prop := (encode i).extractLsb' 0 4 = i.selector

theorem reset : Statement (.reset) :=
  extract_append_low (n := 68) _ _

theorem selectBaud (clock baud : Word) : Statement (.selectBaud clock baud) :=
  extract_append_low (n := 68) _ _

theorem encodeFrame (mode : Half) : Statement (.encodeFrame mode) :=
  extract_append_low (n := 68) _ _

theorem configure (divisor : Word) (ds : Bool) (ff : Half) (rx tx : Bool) : Statement (.configure divisor ds ff rx tx) :=
  extract_append_low (n := 68) _ _

theorem init (baud : Word) (mode : Half) : Statement (.init baud mode) :=
  extract_append_low (n := 68) _ _

theorem hostDisable : Statement (.hostDisable) :=
  extract_append_low (n := 68) _ _

theorem hostEnqueue (b : Byte) : Statement (.hostEnqueue b) :=
  extract_append_low (n := 68) _ _

theorem txkick : Statement (.txkick) :=
  extract_append_low (n := 68) _ _

theorem hostDequeue : Statement (.hostDequeue) :=
  extract_append_low (n := 68) _ _

theorem isrRxc : Statement (.isrRxc) :=
  extract_append_low (n := 68) _ _

theorem isrUdre : Statement (.isrUdre) :=
  extract_append_low (n := 68) _ _

theorem isrTxc : Statement (.isrTxc) :=
  extract_append_low (n := 68) _ _

theorem pump : Statement (.pump) :=
  extract_append_low (n := 68) _ _

theorem hwTxDone : Statement (.hwTxDone) :=
  extract_append_low (n := 68) _ _

theorem hwRxFrame (b : Byte) : Statement (.hwRxFrame b) :=
  extract_append_low (n := 68) _ _

theorem mode (w : Half) : Statement (.mode w) :=
  extract_append_low (n := 68) _ _

theorem imgA (d : Bool) : Statement (.imgA d) :=
  extract_append_low (n := 68) _ _

theorem imgB0 (z : Bool) : Statement (.imgB0 z) :=
  extract_append_low (n := 68) _ _

theorem imgB1 (r t z : Bool) : Statement (.imgB1 r t z) :=
  extract_append_low (n := 68) _ _

theorem imgC (m p : BitVec 2) (sb : Bool) (y : BitVec 2) (c : Bool) : Statement (.imgC m p sb y c) :=
  extract_append_low (n := 68) _ _

end Selector
end Laws
end Sys2Proof
end

