-- ==== Sys2Proof/Laws/Runs.lean ====
section
/-! SUPPORT. Runs (R251): a handler that continues moves on, and in a weakly fair run it leaves the position at which it
stands. -/

namespace Sys2Proof
namespace Machine

/-! ## Where a handler's step leads -/

theorem pumpPop_isr {position : Option Byte → IsrProgress} {s t : State} (h : pumpPop position s = .next t) :
    ∃ r, t.isr = some (position r) := by
  simp only [pumpPop, done_eq_next] at h
  subst h
  exact ⟨_, rfl⟩

theorem pumpWrite_isr {r : Option Byte} {s t : State} (h : pumpWrite r s = .next t) : t.isr = none := by
  unfold pumpWrite at h
  split at h
  · rw [done_eq_next] at h; subst h; rfl
  · split at h
    · rw [done_eq_next] at h; subst h; rfl
    · cases h

theorem rxcRead_isr {s t : State} (h : rxcRead s = .next t) : ∃ b, t.isr = some (.rxc2 b) := by
  unfold rxcRead at h
  split at h
  · rw [done_eq_next] at h; subst h; exact ⟨_, rfl⟩
  · cases h

theorem rxcPush_isr {b : Byte} {s t : State} (h : rxcPush b s = .next t) : t.isr = none := by
  unfold rxcPush at h
  split at h <;> (rw [done_eq_next] at h; subst h; rfl)

/-- A handler's own operation takes it away from the position at which it stands. -/
theorem continuesHandler_moves_on {i : Instr} {s t : State} {p : IsrProgress} (at_p : s.isr = some p)
    (own : continuesHandler i p = true) (h : exec i s = .next t) : t.isr ≠ some p := by
  cases i <;> cases p <;> (try cases own) <;>
    simp only [exec, execPump, execIsrTxc, execIsrUdre, execIsrRxc, pumpStep, at_p] at h
  all_goals first
    | (rw [pumpWrite_isr h]; simp)
    | (rw [rxcPush_isr h]; simp)
    | (refine (rxcRead_isr h).elim fun b e => ?_; rw [e]; simp)
    | (refine (pumpPop_isr h).elim fun r e => ?_; rw [e]; simp)

/-! ## Runs -/

/-- What holds at a moment and is kept by each later step holds from then on. -/
theorem run_keeps {P : State → Prop} {σ : Nat → State} {n : Nat} (start : P (σ n))
    (kept : ∀ j, n ≤ j → P (σ j) → P (σ (j + 1))) : ∀ m, n ≤ m → P (σ m) := fun _ hm => by
  induction hm with
  | refl => exact start
  | step hm ih => exact kept _ hm ih

/-- In a weakly fair run a handler stays at its position up to some moment and leaves it in the next step. -/
theorem handler_leaves {sched : Nat → Instr} {σ : Nat → State} (run : IsRun sched σ) (fair : WeaklyFair sched σ) {n : Nat}
    {p : IsrProgress} (at_p : (σ n).isr = some p) :
    ∃ m, n ≤ m ∧ (∀ j, n ≤ j → j ≤ m → (σ j).isr = some p) ∧ (σ (m + 1)).isr ≠ some p := by
  classical
  have left : ∃ d, (σ (n + d + 1)).isr ≠ some p := by
    by_contra never
    push Not at never
    have always : ∀ m, n ≤ m → (σ m).isr = some p :=
      run_keeps (P := fun s => s.isr = some p) at_p fun j hj _ => by
        obtain ⟨d, rfl⟩ := Nat.exists_eq_add_of_le hj
        exact never d
    obtain ⟨m, hm, gone | own⟩ := fair.handler n p at_p
    · exact gone (always m hm)
    · exact continuesHandler_moves_on (always m hm) own (run m) (always (m + 1) (by omega))
  have first := @Nat.find_min _ _ left
  refine ⟨n + Nat.find left, by omega, fun j hj hjm => ?_, Nat.find_spec left⟩
  obtain ⟨d, rfl⟩ := Nat.exists_eq_add_of_le hj
  cases d with
  | zero => exact at_p
  | succ d => exact not_not.mp (first (m := d) (by omega))

end Machine
end Sys2Proof
end

