-- ==== Sys2Proof/Tests/Slice0.lean ====
section
/-! SUPPORT. Tests by the vectors of 95_test_vectors.md (named in each comment), the words written out from the spec's
encodings, the smoke test of WellFormed, and for each obligation with hypotheses a state that meets them. -/

open Sys2Proof Sys2Proof.Machine

namespace Sys2Proof
namespace Tests

/-! ## Helpers -/

/-- The parameters of the vectors: 16 MHz, both queues of eight bytes. -/
def vectorParams : Params := { clockHz := 16000000#32, txCap := 8, rxCap := 8, base := 0x100, irqOrder := none }

/-- `CleanStart` under the parameters of the vectors. -/
def clean : State := { State.reset with params := vectorParams }

/-- "Enabled": `Enabled(9600, 0x0618)` of R293. -/
def enabled : State :=
  { clean with ctrlB := 0xF8#8, ctrlC := 0x06#8, baud := 104#32, phase := .operational, hook := true }

/-- The frame of a byte under the format of `enabled`. -/
def frameOf (b : Byte) : TxFrame :=
  { byte := b, fmt := { ctrlC := 0x06#8, csz2 := false, u2x := false, baud := 104#32 }, garbled := false }

/-- `exec` answers a next state with the property. -/
def nextHas (i : Instr) (s : State) (p : State → Bool) : Bool :=
  match exec i s with
  | .next t => p t
  | .fault _ => false
  | .refused _ => false

/-- A short schedule ends in a state with the property. -/
def runHas (ops : List Instr) (s : State) (p : State → Bool) : Bool :=
  match runOps ops s with
  | .next t => p t
  | .fault _ => false
  | .refused _ => false

/-- `step` runs the word placed first after reset and answers a next state with the property. -/
def bootHas (nbits w : Nat) (p : State → Bool) : Bool :=
  match step (State.reset.withFetchWord nbits w) with
  | .next t => p t
  | .fault _ => false
  | .refused _ => false

/-! ## WellFormed -/

/-- R160: the divisor runs from 1 to 2^29. -/
theorem test_wf_divisor_zero : (Instr.configure 0#32 false 0x0618#16 true true).wf = false := by decide
theorem test_wf_divisor_above : (Instr.configure 536870913#32 false 0x0618#16 true true).wf = false := by decide
theorem test_wf_divisor_ends :
    (Instr.configure 1#32 false 0x0618#16 true true).wf = true ∧
    (Instr.configure 536870912#32 false 0x0618#16 true true).wf = true := by decide

/-- R10: the capacities are at least 1 and `IRQ_ORDER` is a total order of the three sources. -/
theorem test_wf_params :
    vectorParams.wf = true ∧ { vectorParams with txCap := 0 }.wf = false ∧ { vectorParams with rxCap := 0 }.wf = false := by
  decide
theorem test_wf_irq_order :
    irqOrderWf (some [.rxc, .udre, .txc]) = true ∧ irqOrderWf (some [.rxc, .txc]) = false ∧
    irqOrderWf (some [.rxc, .udre, .txc, .txc]) = false := by decide

/-! ## Decoding: selectors from R101, patterns from R95 and R97 to R99 -/

theorem test_decode_reset : decode 0x0#72 = .ok .reset := by decide
/-- Clock 16000000 = 0x00F42400, baud 9600 = 0x2580. -/
theorem test_decode_select_baud :
    decode 0x0000258000F4240001#72 = .ok (.selectBaud 16000000#32 9600#32) := by decide
theorem test_decode_encode_frame : decode 0x4EF002#72 = .ok (.encodeFrame 0x4EF0#16) := by decide
/-- Divisor 17, double speed, mode 0x0548, receive off, transmit on. -/
theorem test_decode_configure :
    decode 0x05480000001153#72 = .ok (.configure 17#32 true 0x0548#16 false true) := by decide
theorem test_decode_init : decode 0x06180000258004#72 = .ok (.init 9600#32 0x0618#16) := by decide
theorem test_decode_host_disable : decode 0x5#72 = .ok .hostDisable := by decide
theorem test_decode_host_enqueue : decode 0x4106#72 = .ok (.hostEnqueue 0x41#8) := by decide
theorem test_decode_txkick : decode 0x7#72 = .ok .txkick := by decide
theorem test_decode_host_dequeue : decode 0x8#72 = .ok .hostDequeue := by decide
theorem test_decode_handlers :
    decode 0x9#72 = .ok .isrRxc ∧ decode 0xA#72 = .ok .isrUdre ∧ decode 0xB#72 = .ok .isrTxc := by decide
theorem test_decode_pump : decode 0xC#72 = .ok .pump := by decide
theorem test_decode_hw_tx_done : decode 0xD#72 = .ok .hwTxDone := by decide
theorem test_decode_hw_rx_frame : decode 0x5A0E#72 = .ok (.hwRxFrame 0x5A#8) := by decide
/-- The pattern `mmxxzyyscpprtxxx` is read in the meaning; the word itself is kept. -/
theorem test_decode_mode : decode 0x06180F#72 = .ok (.mode 0x0618#16) := by decide
/-- `000000d0` with d = 1; a 1 where the pattern has a 0 is refused. -/
theorem test_decode_img_a :
    decode 0x021F#72 = .ok (.imgA true) ∧ decode 0x061F#72 = .error .imageBits := by decide
/-- `00000z00` with z = 1. -/
theorem test_decode_img_b0 :
    decode 0x042F#72 = .ok (.imgB0 true) ∧ decode 0x052F#72 = .error .imageBits := by decide
/-- `rttrtz00`: 0x94 is r = 1, t = 0, z = 1; 0x68 is t alone; 0x80 has r in one of its two places only. -/
theorem test_decode_img_b1 :
    decode 0x943F#72 = .ok (.imgB1 true false true) ∧ decode 0x683F#72 = .ok (.imgB1 false true false) ∧
    decode 0x803F#72 = .error .imageBits := by decide
/-- `mmppsyyc`: 0x77 = 01 11 0 11 1. -/
theorem test_decode_img_c : decode 0x774F#72 = .ok (.imgC 1#2 3#2 false 3#2 true) := by decide
/-- R101: value 15 is unused; a number that is no data format is refused. -/
theorem test_decode_unused : decode 0x5F#72 = .error .unusedSelector := by decide

/-- The table's `match` values, in whole bytes, decode to their rows. -/
theorem test_table_words :
    decodeTableWord 8 0x0 = some .reset ∧ decodeTableWord 8 0x1 = some (.selectBaud 0#32 0#32) ∧
    decodeTableWord 8 0x2 = some (.encodeFrame 0#16) ∧
    decodeTableWord 8 0x3 = some (.configure 0#32 false 0#16 false false) ∧
    decodeTableWord 8 0x4 = some (.init 0#32 0#16) ∧ decodeTableWord 8 0x5 = some .hostDisable ∧
    decodeTableWord 8 0x6 = some (.hostEnqueue 0#8) ∧ decodeTableWord 8 0x7 = some .txkick ∧
    decodeTableWord 16 0x8 = some .hostDequeue ∧ decodeTableWord 8 0x9 = some .isrRxc ∧
    decodeTableWord 8 0xA = some .isrUdre ∧ decodeTableWord 8 0xB = some .isrTxc ∧
    decodeTableWord 16 0xC = some .pump ∧ decodeTableWord 16 0xD = some .hwTxDone ∧
    decodeTableWord 16 0xE = some (.hwRxFrame 0#8) := by decide

/-- Each of the fifteen operations runs as the first after reset. -/
theorem test_boot :
    ((List.range 15).all fun w => bootHas 8 w fun t => decide (t.agenda = [])) = true := by decide
/-- R271: after reset the first step is a host step or a `RESET`; a handler's entry does not happen, nor a
kick, which only a push makes (R18). -/
theorem test_boot_handlers_wait :
    ([7, 9, 10, 11, 12, 13, 14].all fun w => bootHas 8 w fun t => decide (t.result = .blocked)) = true := by decide
/-- A failing `INIT` as the first operation: baud 0 (V78). -/
theorem test_boot_init : bootHas 8 0x4 (fun t => decide (t.result = .unachievableBaud)) = true := by decide

/-! ## SELECT_BAUD -/

/-- V2, V6, V17. -/
theorem test_select_factor_8 :
    selectBaud 16000000 115200 = some (17, true) ∧ selectBaud 16000000 2400 = some (833, true) ∧
    selectBaud 1000000 9600 = some (13, true) := by decide
/-- V1, V18, V19, V29, V30: ties, strict wins of factor 16, no wrap. -/
theorem test_select_factor_16 :
    selectBaud 16000000 9600 = some (104, false) ∧ selectBaud 112 10 = some (1, false) ∧
    selectBaud 20 1 = some (3, true) ∧ selectBaud 4294967295 268435456 = some (1, false) ∧
    selectBaud 11 1 = some (1, false) := by decide
/-- V10 to V12, V20 to V23, V33 to V35: the boundaries. -/
theorem test_select_boundaries :
    selectBaud 16000000 3000000 = some (1, true) ∧ selectBaud 16000000 4000000 = some (1, true) ∧
    selectBaud 16000000 4000001 = none ∧ selectBaud 0 9600 = none ∧ selectBaud 16000000 0 = none ∧
    selectBaud 4294967295 1 = some (268435456, false) ∧ selectBaud 7 1 = some (1, true) ∧
    selectBaud 4 1 = some (1, true) ∧ selectBaud 3 1 = none := by decide
/-- V2: the two scaled errors. -/
theorem test_select_errors :
    error16 16000000 115200 9 17 = 10009600 ∧ error8 16000000 115200 9 17 = 5990400 := by decide
/-- V2 and V13 as operations. -/
theorem test_exec_select_baud :
    nextHas (.selectBaud 16000000#32 115200#32) enabled (fun t => decide (t.result = .baudOk 17#32 true)) = true ∧
    nextHas (.selectBaud 16000000#32 5000000#32) enabled (fun t => decide (t.result = .unachievable)) = true := by
  decide

/-! ## ENCODE_FRAME and the images -/

/-- V50 to V53. -/
theorem test_encode_words :
    encodeFrame 0x0618#16 = { imgC := 0x06#8, sz2 := false, enableRx := true, enableTx := true } ∧
    encodeFrame 0x0548#16 = { imgC := 0x2C#8, sz2 := false, enableRx := false, enableTx := true } ∧
    encodeFrame 0x4EF0#16 = { imgC := 0x77#8, sz2 := true, enableRx := true, enableTx := false } ∧
    encodeFrame 0xFFFF#16 = { imgC := 0xFF#8, sz2 := true, enableRx := true, enableTx := true } := by decide
/-- V55, V59 and the single-bit walk of bits 15, 11, 8, 7, 6, 5, 10, 9. -/
theorem test_encode_walk :
    (encodeFrame 0x3007#16).imgC = 0x00#8 ∧ (encodeFrame 0x0638#16).imgC = 0x16#8 ∧
    (encodeFrame 0x8000#16).imgC = 0x80#8 ∧ (encodeFrame 0x0800#16).imgC = 0x00#8 ∧
    (encodeFrame 0x0100#16).imgC = 0x08#8 ∧ (encodeFrame 0x0080#16).imgC = 0x01#8 ∧
    (encodeFrame 0x0040#16).imgC = 0x20#8 ∧ (encodeFrame 0x0020#16).imgC = 0x10#8 ∧
    (encodeFrame 0x0400#16).imgC = 0x04#8 ∧ (encodeFrame 0x0200#16).imgC = 0x02#8 := by decide
/-- V50 to V53: the images for `CTRLB`; R97: the image for `CTRLA`. -/
theorem test_images :
    imgB1Of true true false = 0xF8#8 ∧ imgB1Of false true false = 0x68#8 ∧ imgB1Of true false true = 0x94#8 ∧
    imgB0Of true = 0x04#8 ∧ imgAOf true = 0x02#8 ∧ imgAOf false = 0x00#8 := by decide
/-- The fields of `MODE(1, 7, 0, 1, 3, 1, 0)` (V52), as a row. -/
theorem test_exec_mode :
    nextHas (.mode 0x4EF0#16) enabled (fun t => decide (t.result = .modeFields
      { msel := 1#2, size3 := 7#3, sbs := false, cpol := true, pm := 3#2, rxen := true, txen := false })) = true := by
  decide
/-- V52: `CTRLC` image 0x77 from its fields, as a row. -/
theorem test_exec_img_c :
    nextHas (.imgC 1#2 3#2 false 3#2 true) enabled (fun t => decide (t.result = .image .ctrlC 0x77#8)) = true := by
  decide

/-! ## LINE_FRAME -/

def fmtOf (c : Byte) (z : Bool) : Fmt := { ctrlC := c, csz2 := z, u2x := false, baud := 104#32 }

/-- V60, V63, V65. -/
theorem test_line_frames :
    lineFrame (fmtOf 0x06#8 false) 0x41#8 =
      some [false, true, false, false, false, false, false, true, false, true] ∧
    lineFrame (fmtOf 0x2C#8 false) 0xC1#8 =
      some [false, true, false, false, false, false, false, true, false, true, true] ∧
    lineFrame (fmtOf 0x36#8 false) 0x41#8 =
      some [false, true, false, false, false, false, false, true, false, true, true] := by decide
/-- V66, V67, V68: the shortest frame, the longest, and 6O2. -/
theorem test_line_lengths :
    lineFrame (fmtOf 0x00#8 false) 0xFF#8 = some [false, true, true, true, true, true, true] ∧
    lineFrame (fmtOf 0x2E#8 true) 0xFF#8 =
      some [false, true, true, true, true, true, true, true, true, false, false, true, true] ∧
    lineFrame (fmtOf 0x3A#8 false) 0x2A#8 =
      some [false, false, true, false, true, false, true, false, true, true] := by decide
/-- V69 to V72. -/
theorem test_line_unspecified :
    lineFrame (fmtOf 0x00#8 true) 0x41#8 = none ∧ lineFrame (fmtOf 0x16#8 false) 0x41#8 = none ∧
    lineFrame (fmtOf 0x46#8 false) 0x41#8 = none ∧ lineFrame (fmtOf 0x07#8 false) 0x41#8 = none := by decide

/-! ## CONFIGURE, INIT, HOST_DISABLE -/

/-- V73. -/
theorem test_init_enables :
    runHas (List.replicate 8 (.init 9600#32 0x0618#16)) clean
      (fun t => decide (t = { enabled with result := .ok })) = true := by decide
/-- V75, from the state V73 leaves: no stale bit, and `CTRLB` reads 0x94. -/
theorem test_init_again :
    runHas (List.replicate 8 (.init 9600#32 0x4EF0#16)) { enabled with draws := [default] }
      (fun t => t.ctrlB == 0x94#8 && t.ctrlC == 0x77#8 && t.baud == 104#32 && !t.u2x) = true := by decide
/-- V74: double speed; V79: reserved bits of `CTRLB` stay 0. -/
theorem test_configure_steps :
    runHas (List.replicate 7 (.configure 1#32 true 0xFFFF#16 true true)) clean
      (fun t => t.ctrlB == 0xFC#8 && t.ctrlC == 0xFF#8 && t.baud == 1#32 && t.ctrlA == 0x22#8 && t.hook &&
        t.phase == .uninitialized && t.host == none) = true := by decide
/-- V77. -/
theorem test_init_fails :
    nextHas (.init 4000001#32 0x0618#16) enabled
      (fun t => decide (t = { enabled with result := .unachievableBaud })) = true := by decide

/-- The start of V120 to V124. -/
def latched (d : LossDraw) : State :=
  { enabled with tsr := some (frameOf 0x41#8), txb := some 0x42#8, rxb := some 0x11#8, draws := [d] }

/-- V121: the shifting byte is lost and the waiting one moves up. -/
theorem test_disable_loses_tsr :
    nextHas .hostDisable (latched { loseTsr := true, loseTxb := false, loseRxb := false })
      (fun t => t.ctrlA == 0xA0#8 && t.ctrlB == 0#8 && t.txb == none && t.tsr == some (frameOf 0x42#8) && t.udreReq &&
        t.txLine == []) = true := by decide
/-- V120 and V123: everything kept, everything lost. -/
theorem test_disable_keeps_or_loses_all :
    nextHas .hostDisable (latched { loseTsr := false, loseTxb := false, loseRxb := false })
      (fun t => t.ctrlB == 0#8 && t.tsr == some (frameOf 0x41#8) && t.txb == some 0x42#8 && t.rxb == some 0x11#8) = true ∧
    nextHas .hostDisable (latched { loseTsr := true, loseTxb := true, loseRxb := true })
      (fun t => t.ctrlA == 0x20#8 && t.tsr == none && t.txb == none && t.rxb == none) = true := by decide
/-- P6: a write of the value already there garbles nothing, a new divisor does. -/
theorem test_garble :
    (writeCtrlC 0x06#8 { enabled with tsr := some (frameOf 0x31#8) }).tsr = some (frameOf 0x31#8) ∧
    (writeBaud 17#32 { enabled with tsr := some (frameOf 0x31#8) }).tsr =
      some { frameOf 0x31#8 with garbled := true } := by decide

/-! ## The transmit path -/

/-- V80: push and kick on an idle block. -/
theorem test_enqueue :
    runHas [.hostEnqueue 0x41#8, .txkick] enabled
      (fun t => t.ctrlA == 0x60#8 && t.txq == [0x41#8] && t.host == none && t.result == .ok) = true := by decide
/-- V81 and V82: a full queue, and no hook. -/
theorem test_enqueue_full_and_unhooked :
    nextHas (.hostEnqueue 0x41#8)
      { enabled with txq := [1#8, 2#8], params := { vectorParams with txCap := 2 } }
      (fun t => t.result == .queueFull && t.txq == [1#8, 2#8] && t.host == none) = true ∧
    nextHas (.hostEnqueue 0x41#8) clean
      (fun t => t.result == .ok && t.txq == [0x41#8] && t.host == none && !t.txc) = true := by decide
/-- V83: a kick while `txc` is 1; R190: with no push in progress nothing kicks. -/
theorem test_txkick :
    nextHas .txkick { enabled with txc := true, host := some .enqueue2 }
      (fun t => decide (t = { enabled with txc := true, result := .ok })) = true ∧
    nextHas .txkick enabled (fun t => !t.txc && t.result == .blocked) = true := by decide
/-- V84: `ISR_TXC` on an idle transmitter. -/
theorem test_isr_txc :
    runHas [.isrTxc, .isrTxc, .isrTxc] { enabled with txc := true, txq := [0x41#8] }
      (fun t => t.ctrlA == 0x20#8 && t.tsr == some (frameOf 0x41#8) && t.udreReq && t.txq == [] &&
        t.txWritten == [0x41#8] && t.isr == none) = true := by decide
/-- V89: the forced handler finds `txb` full. -/
theorem test_isr_txc_overrun :
    runHas [.isrTxc, .pump, .pump]
      { enabled with tsr := some (frameOf 0x41#8), txb := some 0x42#8, txc := true, txq := [0x43#8] }
      (fun t => t.fault.txOverrun && t.txWritten == [0x43#8] && t.txb == some 0x42#8 && t.isr == none) = true := by
  decide
/-- V86 and V87: `ISR_UDRE` with and without a byte. -/
theorem test_isr_udre :
    runHas [.isrUdre, .pump, .pump] { enabled with tsr := some (frameOf 0x41#8), udreReq := true, txq := [0x42#8] }
      (fun t => t.ctrlA == 0x00#8 && t.txb == some 0x42#8 && !t.udreReq && t.txq == []) = true ∧
    runHas [.isrUdre, .isrUdre, .isrUdre] { enabled with tsr := some (frameOf 0x41#8), udreReq := true }
      (fun t => !t.udreReq && t.txWritten == [] && t.txb == none && t.isr == none) = true := by decide
/-- V90 and V91: the end of a frame with and without a successor. -/
theorem test_hw_tx_done :
    nextHas .hwTxDone { enabled with tsr := some (frameOf 0x41#8), txb := some 0x42#8 }
      (fun t => t.ctrlA == 0x20#8 && t.tsr == some (frameOf 0x42#8) && t.udreReq && !t.txc &&
        t.txLine == [.frame 0x41#8 (frameOf 0x41#8).fmt]) = true ∧
    nextHas .hwTxDone { enabled with tsr := some (frameOf 0x41#8) }
      (fun t => t.ctrlA == 0x60#8 && t.tsr == none && !t.udreReq) = true := by decide
/-- V95: `HW_TX_DONE` between the pop and the write. -/
theorem test_done_between_pop_and_write :
    runHas [.isrTxc, .pump, .hwTxDone, .pump] { enabled with tsr := some (frameOf 0x41#8), txc := true, txq := [0x42#8] }
      (fun t => t.txc && t.tsr == some (frameOf 0x42#8) && t.udreReq && t.txb == none) = true := by decide

/-! ## The receive path -/

/-- V100 and V101. -/
theorem test_hw_rx_frame :
    nextHas (.hwRxFrame 0x5A#8) enabled (fun t => t.ctrlA == 0xA0#8 && t.rxb == some 0x5A#8) = true ∧
    nextHas (.hwRxFrame 0x5B#8) { enabled with rxb := some 0x5A#8 }
      (fun t => t.fault.rxOverrun && t.rxb == some 0x5A#8) = true := by decide
/-- R149: with 7 data bits 0x7F arrives and 0x80 does not; 2.6: with `RXEN = 0` nothing arrives. -/
theorem test_hw_rx_frame_guard :
    nextHas (.hwRxFrame 0x7F#8) { enabled with ctrlC := 0x2C#8 } (fun t => t.rxb == some 0x7F#8) = true ∧
    nextHas (.hwRxFrame 0x80#8) { enabled with ctrlC := 0x2C#8 } (fun t => t.result == .blocked) = true ∧
    nextHas (.hwRxFrame 0x01#8) { enabled with ctrlB := 0x68#8 } (fun t => t.result == .blocked) = true := by decide
/-- V103: the queue is full; V104: an arrival between the read and the push. -/
theorem test_isr_rxc :
    runHas [.isrRxc, .isrRxc, .isrRxc]
      { enabled with rxb := some 0x5A#8, rxq := [1#8, 2#8], params := { vectorParams with rxCap := 2 } }
      (fun t => t.rxb == none && t.rxq == [1#8, 2#8] && t.rxDropped == 1 && t.isr == none) = true ∧
    runHas [.isrRxc, .isrRxc, .hwRxFrame 0x5B#8, .isrRxc, .isrRxc, .isrRxc, .isrRxc]
      { enabled with rxb := some 0x5A#8 }
      (fun t => t.rxb == none && t.rxq == [0x5A#8, 0x5B#8] && t.isr == none) = true := by decide
/-- V105 and V106. -/
theorem test_host_dequeue :
    nextHas .hostDequeue { enabled with rxq := [0x5A#8, 0x5B#8] }
      (fun t => t.rxq == [0x5B#8] && t.result == .popped (some 0x5A#8)) = true ∧
    nextHas .hostDequeue enabled (fun t => t.rxq == [] && t.result == .popped none) = true := by decide

/-! ## Dispatch and reset -/

/-- All three requests pending, as in V110 to V114. -/
def allPending : State :=
  { enabled with txc := true, udreReq := true, rxb := some 0x11#8, tsr := some (frameOf 0x41#8) }

/-- V110 to V114: which entries are enabled. -/
theorem test_dispatch :
    ([Source.rxc, .udre, .txc].map fun k => allPending.entryEnabled k) = [true, true, true] ∧
    ([Source.rxc, .udre, .txc].map fun k => { allPending with ctrlB := 0#8 }.entryEnabled k) = [false, false, false] ∧
    ([Source.rxc, .udre, .txc].map fun k => { allPending with ctrlB := 0x68#8 }.entryEnabled k) = [false, true, true] ∧
    ([Source.rxc, .udre, .txc].map fun k => { allPending with ctrlB := 0x90#8 }.entryEnabled k) = [true, false, false] ∧
    ([Source.rxc, .udre, .txc].map fun k => { allPending with isr := some .rxc1 }.entryEnabled k) =
      [false, false, false] := by decide
/-- R240: under an order only its first pending source is entered. -/
theorem test_irq_order :
    ([Source.rxc, .udre, .txc].map fun k =>
      { allPending with params := { vectorParams with irqOrder := some [.txc, .rxc, .udre] } }.entryEnabled k) =
      [false, false, true] := by decide
/-- V125. -/
theorem test_reset :
    nextHas .reset { latched default with txc := true, txq := [9#8], rxq := [7#8], fault := { txOverrun := true, rxOverrun := false } }
      (fun t => t.ctrlA == 0x20#8 && t.ctrlB == 0#8 && t.ctrlC == 0#8 && t.baud == 0#32 && t.tsr == none &&
        t.phase == .uninitialized && !t.hook && t.txq == [9#8] && t.rxq == [7#8] && t.fault.txOverrun) = true := by
  decide
/-- R65: a word access to `BAUD` works and a byte access to `BASE + 5` is refused. -/
theorem test_bus :
    memRead 0x104 4 enabled = .ok (104#32, enabled) ∧ memRead 0x105 1 enabled = .error .badAccess ∧
    memRead 0x100 4 enabled = .error .badAccess ∧ memRead 0x100 1 enabled = .ok (0x20#32, enabled) := by decide

/-! ## Witnesses: for each obligation with hypotheses, states and operands that meet them, clause by clause -/

/-- A byte in the shift register. -/
def shifting : State := { enabled with tsr := some (frameOf 0x41#8) }

/-- A byte in the shift register and one behind it. -/
def waiting : State := { shifting with txb := some 0x42#8 }

/-- A transmit handler stands before its write of 0x43. -/
def beforeWrite (s : State) : State := { s with isr := some (.txc2 (some 0x43#8)) }

/-- The images of `INIT(9600, 0x0618)`. -/
def cfg9600 : Cfg :=
  { divisor := 104#32, doubleSpeed := false, imgC := 0x06#8, sz2 := false, enableRx := true, enableTx := true }

/-- Inside `INIT(9600, 0x0618)`, before step `k`. -/
def inInit (k : ConfStep) (s : State) : State := { s with phase := .configuring, host := some (.init k cfg9600) }

theorem witness_invariant_enabled : enabled.Inv := by constructor <;> decide
theorem witness_invariant_waiting : waiting.Inv := by constructor <;> decide
theorem witness_invariant_configuring : (inInit .c4 { shifting with ctrlB := 0#8 }).Inv := by constructor <;> decide

theorem witness_SelectorNibbleDecidesOperation : (0x5A0E#72 : OpWord).extractLsb' 0 4 ≠ 15#4 := by decide

theorem witness_StepRunsScheduledOperation :
    ({ enabled with agenda := [0xD#72, 0x5F#72] }.agenda = 0xD#72 :: [0x5F#72] ∧ decode 0xD#72 = .ok .hwTxDone) ∧
    ({ enabled with agenda := [0x5F#72] }.agenda = 0x5F#72 :: [] ∧ decode 0x5F#72 = .error .unusedSelector) ∧
    enabled.agenda = [] := by decide

/-- Baud 0; V12; V11; V2; V1. -/
theorem witness_SelectBaudFollowsPseudocode :
    ((16000000 + 8 * 4000001) / (16 * 4000001) = 0 ∧ (16000000 + 4 * 4000001) / (8 * 4000001) = 0) ∧
    ((16000000 + 8 * 4000000) / (16 * 4000000) = 0 ∧ (16000000 + 4 * 4000000) / (8 * 4000000) = 1) ∧
    ((17 : Int) * |16000000 - 16 * 115200 * 9| > 2 * 9 * |16000000 - 8 * 115200 * 17|) ∧
    ¬ ((208 : Int) * |16000000 - 16 * 9600 * 104| > 2 * 104 * |16000000 - 8 * 9600 * 208|) := by decide

/-- V34: the first feasible point; V23: the largest divisors. -/
theorem witness_SelectorFacts :
    (4 < 2 ^ 32 ∧ 1 ≤ 1 ∧ 1 < 2 ^ 32 ∧ 4 * 1 ≤ 4 ∧ 4 < 8 * 1) ∧ roundedDivisor 8 3 1 = 0 ∧
    (1 ≤ roundedDivisor 16 8 1 ∧ selectBaud 8 1 = some (1, true)) ∧
    selectBaud (2 ^ 32 - 1) 1 = some (2 ^ 28, false) := by decide

/-- V32 (factor 8 nearer) and V31 (a tie), at 8 clocks to the baud and above. -/
theorem witness_SelectorPicksTheNearerRate :
    (8 * 1 ≤ 8 ∧ |(8 : ℚ) / (8 * 1) - 1| < |(8 : ℚ) / (16 * 1) - 1|) ∧
    (8 * 1 ≤ 12 ∧ |(12 : ℚ) / (16 * 1) - 1| ≤ |(12 : ℚ) / (8 * 2) - 1|) := by norm_num [abs_of_neg]

/-- V66 and V67: 7 and 13 bits; V70: unspecified; sizes 3 and 7 at the ends of the two ranges; the line at rest and
busy. -/
theorem witness_LineFrameShape :
    (lineFrame (fmtOf 0x00#8 false) 0xFF#8).isSome = true ∧ (lineFrame (fmtOf 0x2E#8 true) 0xFF#8).isSome = true ∧
    ((fmtOf 0x16#8 false).ctrlC.extractLsb' 4 2).toNat = 1 ∧
    3 = (if (fmtOf 0x06#8 false).csz2 then 4 else 0) + ((fmtOf 0x06#8 false).ctrlC.extractLsb' 1 2).toNat ∧
    7 = (if (fmtOf 0x06#8 true).csz2 then 4 else 0) + ((fmtOf 0x06#8 true).ctrlC.extractLsb' 1 2).toNat ∧
    lineFrame (fmtOf 0x00#8 true) 0xFF#8 = none ∧ enabled.tsr = none ∧ shifting.tsr ≠ none := by decide

theorem witness_ConfigureTakesItsSteps :
    (enabled.isr = none ∧ enabled.host = none) ∧
    { enabled with host := some (.configure .c7 cfg9600) }.host = some (.configure .c7 cfg9600) := by decide

theorem witness_InitStartsConfiguring :
    enabled.isr = none ∧ enabled.host = none ∧
    selectBaud enabled.params.clockHz.toNat (9600#32 : Word).toNat = some (104, false) := by decide

/-- Baud 0, and 4000001 at 16 MHz, the first unachievable rate. -/
theorem witness_FailingInitChangesNothing :
    enabled.isr = none ∧ enabled.host = none ∧ (0#32 : Word) = 0#32 ∧
    enabled.params.clockHz.toNat < 4 * (4000001#32 : Word).toNat := by decide

theorem witness_InitTakesItsSteps :
    (inInit .c1 enabled).isr = none ∧ (inInit .c1 enabled).host = some (.init .c1 cfg9600) ∧
    (inInit .c7 enabled).host = some (.init .c7 cfg9600) := by decide

theorem witness_ConfigurationGarblesOnChange :
    ((inInit .c6 { shifting with ctrlB := 0#8 }).isr = none ∧
      (inInit .c6 { shifting with ctrlB := 0#8 }).host = some (.init .c6 cfg9600) ∧
      (inInit .c6 { shifting with ctrlB := 0#8 }).txen = false ∧ (inInit .c6 { shifting with ctrlB := 0#8 }).rxen = false) ∧
    { enabled with host := some (.configure .c4 cfg9600) }.host = some (.configure .c4 cfg9600) := by decide

theorem witness_DisableStepIsTheHostDisableWrite :
    (∃ u, exec .hostDisable { latched default with host := none } = .next u) ∧ (latched default).host = none ∧
    (inInit .c1 (latched default)).isr = none ∧ (inInit .c1 (latched default)).host = some (.init .c1 cfg9600) :=
  ⟨⟨_, rfl⟩, by decide⟩

theorem witness_InitOverwritesEveryConfigurationBit :
    (latched default).isr = none ∧ (latched default).host = none ∧
    selectBaud (latched default).params.clockHz.toNat (115200#32 : Word).toNat = some (17, true) := by decide

theorem witness_InitFromCleanStartIsEnabled :
    clean.CleanStart ∧ (selectBaud clean.params.clockHz.toNat (9600#32 : Word).toNat).isSome = true := by
  refine ⟨?_, by decide⟩
  simp only [State.CleanStart, State.FaultFree]
  decide

/-- With the draw of V121 the waiting byte moves up; with that of V120 nothing does. -/
theorem witness_HostDisableLosesOnlyWhatIsDrawn :
    (latched { loseTsr := true, loseTxb := false, loseRxb := false }).isr = none ∧
    (latched { loseTsr := true, loseTxb := false, loseRxb := false }).host = none ∧
    (latched { loseTsr := true, loseTxb := false, loseRxb := false }).draws =
      [{ loseTsr := true, loseTxb := false, loseRxb := false }] ∧
    (latched default).txen = true ∧ (latched default).tsr ≠ none := by decide

theorem witness_HostDisableAlwaysCompletes : waiting.isr = none ∧ waiting.host = none ∧ waiting.draws = [] := by decide

theorem witness_PhaseWrittenOnlyByInitAndReset :
    (∃ t, exec (.init 9600#32 0x0618#16) enabled = .next t ∧ t.phase ≠ enabled.phase) ∧
    (∃ t, exec .reset enabled = .next t ∧ t.phase ≠ enabled.phase) := ⟨⟨_, rfl, by decide⟩, ⟨_, rfl, by decide⟩⟩

theorem witness_HookSetByC7ClearedByReset :
    (∃ t, exec (.init 0#32 0#16) (inInit .c7 clean) = .next t ∧ t.hook ≠ (inInit .c7 clean).hook) ∧
    (∃ t, exec .reset enabled = .next t ∧ t.hook ≠ enabled.hook) := ⟨⟨_, rfl, by decide⟩, ⟨_, rfl, by decide⟩⟩

/-- A queue one byte short of full, and a full one. -/
theorem witness_EnqueuePushes :
    (enabled.isr = none ∧ enabled.host = none ∧ enabled.hook = true ∧ clean.hook = false) ∧
    (List.replicate 7 0#8).length < enabled.params.txCap ∧ enabled.params.txCap ≤ (List.replicate 8 (0#8 : Byte)).length ∧
    { enabled with host := some .enqueue2 }.host = some .enqueue2 := by decide

theorem witness_TxkickSetsTxcOnly :
    ({ enabled with host := some .enqueue2 }.isr = none ∧
      { enabled with host := some .enqueue2 }.host = some .enqueue2) ∧
    { enabled with isr := some .rxc1 }.isr ≠ none ∧ enabled.host ≠ some .enqueue2 := by decide

theorem witness_TxcHandlerEntry :
    allPending.isr = none ∧ allPending.txc = true ∧ allPending.txcie = true ∧ allPending.outranked .txc = false := by decide

theorem witness_UdreHandlerEntry :
    allPending.isr = none ∧ allPending.udreReq = true ∧ allPending.udrie = true ∧ allPending.outranked .udre = false := by
  decide

theorem witness_RxcHandlerEntry :
    allPending.isr = none ∧ allPending.rxb ≠ none ∧ allPending.rxcie = true ∧ allPending.outranked .rxc = false := by decide

theorem witness_PumpPopsOneByte :
    { enabled with isr := some .txc1, txq := [0x41#8] }.txq = 0x41#8 :: [] ∧
    { enabled with isr := some .txc1 }.isr = some .txc1 ∧ { enabled with isr := some .udre1 }.isr = some .udre1 ∧
    enabled.txq = [] := by decide

/-- The write to an idle transmitter, behind a shifting byte, on a full holding register, with `TXEN = 0`; and the
empty pump. -/
theorem witness_PumpWritesTheDataRegister :
    ((beforeWrite enabled).isr = some (.txc2 (some 0x43#8)) ∧ (beforeWrite enabled).txen = true ∧
      (beforeWrite enabled).txb = none ∧ (beforeWrite enabled).tsr = none) ∧
    ((beforeWrite shifting).txb = none ∧ (beforeWrite shifting).tsr = some (frameOf 0x41#8)) ∧
    (beforeWrite waiting).txb = some 0x42#8 ∧ (beforeWrite { enabled with ctrlB := 0x90#8 }).txen = false ∧
    { enabled with isr := some (.udre2 none) }.isr = some (.udre2 none) := by decide

theorem witness_TxDoneCompletesTheFrame :
    (waiting.tsr = some (frameOf 0x41#8) ∧ waiting.txb = some 0x42#8) ∧ shifting.txb = none := by decide

/-- A pop, and a push into an empty queue. -/
theorem witness_TransmitStreamConserved :
    (∃ t, exec .pump { enabled with isr := some .txc1, txq := [0x41#8] } = .next t ∧ t.txq = []) ∧
    (∃ t, exec (.hostEnqueue 0x41#8) enabled = .next t ∧ t.txStream = [0x41#8]) :=
  ⟨⟨_, rfl, by decide⟩, ⟨_, rfl, by decide⟩⟩

theorem witness_LineFollowsWrites :
    { shifting with txWritten := [0x41#8] }.LineFollows ∧
    ∃ t, exec .hwTxDone { shifting with txWritten := [0x41#8] } = .next t ∧ t.FaultFree :=
  ⟨⟨[], by decide, .nil⟩, ⟨_, rfl, rfl⟩⟩

theorem witness_AtMostOneByteWrittenPerStep :
    ∃ t, exec .pump (beforeWrite enabled) = .next t ∧ t.txWritten = [0x43#8] := ⟨_, rfl, by decide⟩

theorem witness_UdreHandlerNeverOverruns :
    { shifting with isr := some (.udre2 (some 0x42#8)) }.Inv ∧
    inUdreHandler { shifting with isr := some (.udre2 (some 0x42#8)) }.isr = true ∧
    ∃ t, exec .isrUdre { shifting with isr := some (.udre2 (some 0x42#8)) } = .next t :=
  ⟨by constructor <;> decide, by decide, ⟨_, rfl⟩⟩

/-- Two bytes: one shifting, one held by the handler. -/
theorem witness_TwoBytesNeverOverrun :
    (beforeWrite shifting).Inv ∧ (beforeWrite shifting).inFlight = 2 ∧
    ∃ t, exec .isrTxc (beforeWrite shifting) = .next t ∧ t.txb = some 0x43#8 :=
  ⟨by constructor <;> decide, by decide, ⟨_, rfl, by decide⟩⟩

theorem witness_DrainStaysPending :
    { shifting with txq := [0x42#8] }.Inv ∧ { shifting with txq := [0x42#8] }.DrainPending ∧
    ∃ t, exec .hwTxDone { shifting with txq := [0x42#8] } = .next t ∧ t.txc = true ∧ t.txq ≠ [] :=
  ⟨by constructor <;> decide, fun _ _ _ => .inr (.inr (.inl (by decide))), ⟨_, rfl, by decide⟩⟩

theorem witness_enabled_is_Enabled : enabled.Enabled 9600#32 0x0618#16 := by
  refine ⟨rfl, rfl, ⟨104, false, by decide, by decide, rfl⟩, by decide, by decide, ?_⟩
  simp only [State.FaultFree]
  decide

theorem witness_OneByteIsSentAndTheBlockRests :
    enabled.Enabled 9600#32 0x0618#16 ∧ (encodeFrame 0x0618#16).enableTx = true ∧ 1 ≤ enabled.params.txCap :=
  ⟨witness_enabled_is_Enabled, by decide⟩

/-- P1 with one byte, run through the model: two empty runs follow the one that sends it (R193). -/
theorem test_one_byte :
    runHas [.hostEnqueue 0x41#8, .txkick, .isrTxc, .pump, .pump, .isrUdre, .pump, .pump, .hwTxDone,
        .isrTxc, .pump, .pump] enabled
      (fun t => t.ctrlA == 0x20#8 && t.txWritten == [0x41#8] && t.txLine == [.frame 0x41#8 (frameOf 0x41#8).fmt] &&
        t.txq == [] && t.isr == none && t.tsr == none) = true := by decide

theorem witness_TxcSetAndClearedOnlyAsListed :
    (∃ t, exec .hwTxDone shifting = .next t ∧ shifting.txc = false ∧ t.txc = true) ∧
    (∃ t, exec .txkick { enabled with host := some .enqueue2 } = .next t ∧ enabled.txc = false ∧ t.txc = true) ∧
    (∃ t, exec .isrTxc allPending = .next t ∧ allPending.txc = true ∧ t.txc = false) :=
  ⟨⟨_, rfl, by decide⟩, ⟨_, rfl, by decide⟩, ⟨_, rfl, by decide⟩⟩

theorem witness_UdreRequestSetAndClearedOnlyAsListed :
    (∃ t, exec .hwTxDone waiting = .next t ∧ waiting.udreReq = false ∧ t.udreReq = true) ∧
    (∃ t, exec .isrUdre allPending = .next t ∧ allPending.udreReq = true ∧ t.udreReq = false) :=
  ⟨⟨_, rfl, by decide⟩, ⟨_, rfl, by decide⟩⟩

/-- 7 data bits: 0x7F is the largest byte that arrives. -/
theorem witness_RxFrameArrives :
    { enabled with ctrlC := 0x2C#8 }.rxen = true ∧
    sizeBits (fmtSize3 { enabled with ctrlC := 0x2C#8 }.fmt) = some 7 ∧ (0x7F#8 : Byte).toNat < 2 ^ 7 ∧
    { enabled with ctrlC := 0x2C#8 }.rxb = none ∧ allPending.rxb = some 0x11#8 ∧ allPending.rxen = true ∧
    sizeBits (fmtSize3 allPending.fmt) = some 8 := by decide

theorem witness_RxcReadEmptiesTheInputRegister :
    ({ enabled with isr := some .rxc1, rxb := some 0x5A#8 }.isr = some .rxc1 ∧
      { enabled with isr := some .rxc1, rxb := some 0x5A#8 }.rxb = some 0x5A#8) ∧
    { enabled with isr := some .rxc1 }.rxb = none := by decide

/-- A queue one byte short of full, and a full one. -/
theorem witness_RxcPushOrSilentDrop :
    { enabled with isr := some (.rxc2 0x5A#8) }.isr = some (.rxc2 0x5A#8) ∧
    (List.replicate 7 (0#8 : Byte)).length < enabled.params.rxCap ∧
    enabled.params.rxCap ≤ (List.replicate 8 (0#8 : Byte)).length := by decide

theorem witness_DequeuePopsTheOldest :
    enabled.isr = none ∧ enabled.host = none ∧ enabled.rxq = [] ∧
    { enabled with rxq := [0x5A#8, 0x5B#8] }.rxq = 0x5A#8 :: [0x5B#8] := by decide

/-- An arrival, a dequeue, a drop on a full queue, a loss at a disable. -/
theorem witness_ReceiveStreamConserved :
    (∃ t, exec (.hwRxFrame 0x5A#8) enabled = .next t ∧ t.rxStream = [0x5A#8]) ∧
    (∃ t, exec .hostDequeue { enabled with rxq := [0x5A#8] } = .next t ∧ t.rxStream = []) ∧
    (∃ t, exec .isrRxc
        { enabled with isr := some (.rxc2 0x5A#8), rxq := [1#8], params := { vectorParams with rxCap := 1 } } = .next t ∧
      t.rxDropped = 1) ∧
    (∃ t, exec .hostDisable (latched { loseTsr := false, loseTxb := false, loseRxb := true }) = .next t ∧
      t.rxStream = []) :=
  ⟨⟨_, rfl, by decide⟩, ⟨_, rfl, by decide⟩, ⟨_, rfl, by decide⟩, ⟨_, rfl, by decide⟩⟩

theorem witness_DispatchNeedsRequestAndEnable :
    ∃ t, exec .isrRxc allPending = .next t ∧ allPending.isr = none ∧ t.isr ≠ none := ⟨_, rfl, by decide⟩

theorem witness_NoNestingAndTheHostWaits :
    ∃ t, exec .isrRxc { allPending with isr := some .rxc1 } = .next t ∧ t.isr = some (.rxc2 0x11#8) :=
  ⟨_, rfl, by decide⟩

theorem witness_HostOperationsWaitTheirTurn :
    (agentOf .hostDequeue = .host ∧ { enabled with isr := some .rxc1 }.isr ≠ none) ∧
    continuesHost .hostDequeue .enqueue2 = false := by decide

/-- Two sources pending and enabled, with an order that ranks the receive source first. -/
def rankedPending : State :=
  { allPending with params := { vectorParams with irqOrder := some [.rxc, .udre, .txc] } }

theorem witness_StepsWithoutTheirGuardDoNotHappen :
    (handlerOf .txc = .isrTxc ∧ rankedPending.isr = none ∧ rankedPending.request .txc = true ∧
      rankedPending.enable .txc = true ∧ rankedPending.outranked .txc = true) ∧
    (handlerOf .txc = .isrTxc ∧ enabled.isr = none ∧ enabled.request .txc = false) ∧
    (agentOf .isrTxc = .irq ∧ continuesHandler .isrTxc .udre1 = false) ∧ enabled.tsr = none ∧
    { enabled with ctrlB := 0x68#8 }.rxen = false ∧
    (sizeBits (fmtSize3 { enabled with ctrlC := 0x2C#8 }.fmt) = some 7 ∧ 2 ^ 7 ≤ (0x80#8 : Byte).toNat) := by decide

theorem witness_StepKeepsInvariant :
    { waiting with agenda := [0xD#72] }.Inv ∧ ∃ t, step { waiting with agenda := [0xD#72] } = .next t ∧ t.txb = none :=
  ⟨by constructor <;> decide, ⟨_, rfl, by decide⟩⟩

theorem witness_FaultsAreStickyAndHaveTheirCauses :
    (∃ t, exec .pump (beforeWrite waiting) = .next t ∧ t.fault.txOverrun = true) ∧
    (∃ t, exec (.hwRxFrame 0x5B#8) allPending = .next t ∧ t.fault.rxOverrun = true) ∧
    (∃ t, exec .reset { enabled with fault := { txOverrun := true, rxOverrun := true } } = .next t ∧
      t.fault = { txOverrun := true, rxOverrun := true }) :=
  ⟨⟨_, rfl, by decide⟩, ⟨_, rfl, by decide⟩, ⟨_, rfl, by decide⟩⟩

theorem witness_QuiescentBlockRests :
    (enabled.Quiescent ∧ agentOf .isrTxc = .irq ∧ { enabled with ctrlB := 0x68#8 }.rxen = false) ∧
    { enabled with isr := some .rxc1 }.TxIdle ∧ enabled.txq = [] ∧ enabled.host ≠ some .enqueue2 :=
  ⟨⟨⟨rfl, rfl, rfl, rfl, fun src => by cases src <;> decide⟩, by decide⟩, ⟨rfl, rfl, rfl, rfl, rfl⟩, by decide⟩

/-- A `DATA` read; a `CTRLB` write of 0x94 that turns only the transmitter off, of 0xFC that turns nothing off, and of 0x90
with a waiting byte that moves up; a `DATA` write with `TXEN = 0`, to an idle transmitter, behind a byte, on a full latch. -/
theorem witness_ControlRegistersReadBack :
    allPending.rxb = some 0x11#8 ∧
    ((enabled.txen && !(0xFC#8 : Byte).getLsbD 3) = false ∧ (enabled.rxen && !(0xFC#8 : Byte).getLsbD 4) = false) ∧
    ((latched default).draws = default :: [] ∧ ((latched default).txen && !(0x94#8 : Byte).getLsbD 3) = true ∧
      (latched default).tsr ≠ none) ∧
    ((latched { loseTsr := true, loseTxb := false, loseRxb := false }).txb = some 0x42#8 ∧
      (latched { loseTsr := true, loseTxb := false, loseRxb := false }).txen = true) ∧
    { enabled with ctrlB := 0x90#8 }.txen = false ∧ enabled.txen = true ∧ (enabled.txb = none ∧ enabled.tsr = none) ∧
    (shifting.txb = none ∧ shifting.tsr = some (frameOf 0x41#8)) ∧ waiting.txb = some 0x42#8 := by decide

theorem witness_QueuesHaveOneProducerAndOneConsumer :
    ∃ t, exec .isrRxc { enabled with isr := some (.rxc2 0x5A#8) } = .next t ∧ t.rxq = [0x5A#8] := ⟨_, rfl, by decide⟩

/-- Each register at its address, and the first address behind the block. -/
theorem witness_BusReachesTheRegistersOnly :
    (0x104 = enabled.params.base + 4 ∧ 4 = 4) ∧ regAt enabled.params.base 0x103 1 = some .data ∧
    regAt enabled.params.base 0x108 1 = none ∧ regAt enabled.params.base 0x103 4 = none := by decide

/-- A handler writes its byte while another byte waits in the input register; every request is served; then the
block rests. -/
def fairSched (n : Nat) : Instr :=
  [Instr.pump, .isrUdre, .isrUdre, .isrUdre, .hwTxDone, .isrTxc, .isrTxc, .isrTxc].getD n .isrRxc

/-- The run of that schedule. -/
def fairRun : Nat → State
  | 0 => { beforeWrite enabled with rxb := some 0x5A#8 }
  | n + 1 =>
    match exec (fairSched n) (fairRun n) with
    | .next t => t
    | .fault _ => fairRun n
    | .refused _ => fairRun n

/-- Where the run comes to rest. -/
def fairEnd : State :=
  { enabled with txWritten := [0x43#8], txLine := [.frame 0x43#8 (frameOf 0x43#8).fmt], rxq := [0x5A#8], result := .blocked }

theorem fairRun_rests (n : Nat) : fairRun (n + 12) = fairEnd := by
  induction n with
  | zero => decide
  | succ n ih =>
    have quiet : fairSched (n + 12) = .isrRxc := by simp [fairSched]
    rw [show n + 1 + 12 = (n + 12) + 1 from rfl, fairRun, quiet, ih]
    rfl

theorem fairRun_isRun : IsRun fairSched fairRun := fun n => by
  match n with
  | 0 | 1 | 2 | 3 | 4 | 5 | 6 | 7 | 8 | 9 | 10 | 11 => rfl
  | n + 12 =>
    have quiet : fairSched (n + 12) = .isrRxc := by simp [fairSched]
    rw [quiet, fairRun_rests, show n + 12 + 1 = (n + 1) + 12 from rfl, fairRun_rests]
    rfl

/-- What holds in the twelve first states and in the last holds throughout. -/
theorem fairRun_always (p : State → Bool) (first : ∀ i < 12, p (fairRun i) = true) (last : p fairEnd = true) (n : Nat) :
    p (fairRun n) = true := by
  rcases Nat.lt_or_ge n 12 with h | h
  · exact first n h
  · obtain ⟨k, rfl⟩ := Nat.exists_eq_add_of_le' h
    rwa [fairRun_rests]

theorem witness_FairRunsMakeProgress :
    IsRun fairSched fairRun ∧ Fair fairSched fairRun ∧ (∀ m, fairSched m ≠ .reset) ∧
    (fairRun 0).rxb = some 0x5A#8 ∧ (∀ m, (fairRun m).rxcie = true ∧ (fairRun m).txen = true) ∧
    (fairRun 0).Inv ∧ (fairRun 0).hook = true ∧ (fairRun 0).DrainPending ∧ (fairRun 0).txStream = [0x43#8] := by
  have atEnd : ∀ n, ∃ m, n ≤ m ∧ fairRun m = fairEnd := fun n => ⟨n + 12, by omega, fairRun_rests n⟩
  have on := fairRun_always (fun s => s.rxcie && s.txen) (by decide) (by decide)
  refine ⟨fairRun_isRun, ⟨⟨fun n src => ?_, fun n p _ => ?_, fun n p _ => ?_, fun n => ?_⟩, fun n src => ?_⟩, fun m => ?_,
    rfl, fun m => by simpa using on m, by constructor <;> decide, rfl,
    fun _ _ _ => .inr (.inr (.inr (.inr (.inr (by decide))))), by decide⟩
  · obtain ⟨m, hm, e⟩ := atEnd n
    exact ⟨m, hm, .inl (by rw [e]; cases src <;> decide)⟩
  · obtain ⟨m, hm, e⟩ := atEnd n
    exact ⟨m, hm, .inl (by rw [e]; simp [fairEnd, enabled, clean, State.reset])⟩
  · obtain ⟨m, hm, e⟩ := atEnd n
    exact ⟨m, hm, .inl (by rw [e]; simp [fairEnd, enabled, clean, State.reset])⟩
  · obtain ⟨m, hm, e⟩ := atEnd n
    exact ⟨m, hm, .inl (by rw [e]; rfl)⟩
  · obtain ⟨m, hm, e⟩ := atEnd n
    exact ⟨m, hm, .inl (by rw [e]; cases src <;> decide)⟩
  · rcases Nat.lt_or_ge m 12 with h | h
    · exact (by decide : ∀ i < 12, fairSched i ≠ .reset) m h
    · obtain ⟨k, rfl⟩ := Nat.exists_eq_add_of_le' h
      simp [fairSched]

end Tests
end Sys2Proof
end

section
/-! PROOFS. What each step does to the driver's phase (R34). -/

namespace Sys2Proof
namespace Machine

/-- R34: `RESET` and the steps of `INIT` are the only moves that write `phase`. The moves that go through a register
write keep it by that write's own lemma, the others do not name it. -/
theorem Move.phase_eq_or_reset_or_init {i : Instr} {s t : State} (m : Move i s t) :
    t.phase = s.phase ∨ i = .reset ∨ ∃ baud mode, i = .init baud mode := by
  cases m
  case reset => exact .inr (.inl rfl)
  case initStart baud mode _ _ _ _ _ _ _ => exact .inr (.inr ⟨baud, mode, rfl⟩)
  case initStep baud mode _ _ _ _ _ => exact .inr (.inr ⟨baud, mode, rfl⟩)
  case configure k cfg _ _ _ => exact .inl (confEffect_phase k cfg s)
  case disable => exact .inl (writeCtrlB_phase 0x00#8 s)
  all_goals exact .inl rfl

/-- R44, R270: `RESET` gives `phase` its reset value. -/
theorem exec_reset_phase {s t : State} (h : exec .reset s = .next t) : t.phase = .uninitialized := by
  obtain rfl : t = (resetBlock s).ret .none := done_eq_next.mp h
  rfl

/-- Settles O23: `RESET` by its own effect, every other operation by the moves a step can make. -/
theorem phaseWrittenOnlyByInitAndReset : Obligations.PhaseWrittenOnlyByInitAndReset := by
  intro i s t h
  refine ⟨fun reset => ?_, fun changed => ?_⟩
  · subst reset
    exact exec_reset_phase h
  · exact (exec_move h).phase_eq_or_reset_or_init.resolve_left changed

end Machine
end Sys2Proof
end

section
/-! PROOFS. The selector against its pseudocode (R120): the divisors, the two errors, one equation per branch of
`selectBaud`, and the condition of failure. -/

namespace Sys2Proof
namespace Machine

/-! ## The rounded divisors -/

/-- R121: for an even factor the half of the denominator is exact. -/
theorem roundedDivisor_two_mul (k c b : Nat) : roundedDivisor (2 * k) c b = (c + k * b) / (2 * k * b) := by
  have half : 2 * k * b / 2 = k * b := by rw [Nat.mul_assoc, Nat.mul_div_cancel_left _ Nat.two_pos]
  rw [roundedDivisor, roundHalfUp, half]

theorem roundedDivisor_sixteen (c b : Nat) : roundedDivisor 16 c b = (c + 8 * b) / (16 * b) :=
  roundedDivisor_two_mul 8 c b

theorem roundedDivisor_eight (c b : Nat) : roundedDivisor 8 c b = (c + 4 * b) / (8 * b) :=
  roundedDivisor_two_mul 4 c b

/-- R129 (a) for factor 16. -/
theorem roundedDivisor_sixteen_eq_zero_iff {c b : Nat} (hb : b ≠ 0) : roundedDivisor 16 c b = 0 ↔ c < 8 * b := by
  rw [roundedDivisor_sixteen, Nat.div_eq_zero_iff]
  omega

/-- R129 (a) for factor 8. -/
theorem roundedDivisor_eight_eq_zero_iff {c b : Nat} (hb : b ≠ 0) : roundedDivisor 8 c b = 0 ↔ c < 4 * b := by
  rw [roundedDivisor_eight, Nat.div_eq_zero_iff]
  omega

/-! ## The errors as the spec writes them, on the integers -/

theorem error16_cast (c b d16 d8 : Nat) : (error16 c b d16 d8 : ℤ) = d8 * |(c : ℤ) - 16 * b * d16| := by
  simp [error16, rateResidual]

theorem error8_cast (c b d16 d8 : Nat) : (error8 c b d16 d8 : ℤ) = 2 * d16 * |(c : ℤ) - 8 * b * d8| := by
  simp [error8, rateResidual]

/-- The comparison of R126 may be made on the integers of R125. -/
theorem error8_lt_error16_iff (c b d16 d8 : Nat) :
    error8 c b d16 d8 < error16 c b d16 d8 ↔
      (d8 : ℤ) * |(c : ℤ) - 16 * b * d16| > 2 * d16 * |(c : ℤ) - 8 * b * d8| := by
  rw [← error16_cast, ← error8_cast, gt_iff_lt, Int.ofNat_lt]

/-! ## The branches of the selector -/

/-- R124: only factor 8 is feasible. -/
theorem selectBaud_of_sixteen_zero {c b : Nat} (hb : b ≠ 0) (h16 : roundedDivisor 16 c b = 0)
    (h8 : roundedDivisor 8 c b ≠ 0) : selectBaud c b = some (roundedDivisor 8 c b, true) := by
  simp [selectBaud, hb, h16, h8]

/-- R126: with both factors feasible the strict comparison of the errors decides. -/
theorem selectBaud_of_both_feasible {c b : Nat} (hb : b ≠ 0) (h16 : roundedDivisor 16 c b ≠ 0)
    (h8 : roundedDivisor 8 c b ≠ 0) :
    selectBaud c b =
      if error8 c b (roundedDivisor 16 c b) (roundedDivisor 8 c b) <
          error16 c b (roundedDivisor 16 c b) (roundedDivisor 8 c b)
      then some (roundedDivisor 8 c b, true) else some (roundedDivisor 16 c b, false) := by
  simp [selectBaud, hb, h16, h8]

/-- R122, R123: the two causes of failure, as the pseudocode tests them. -/
theorem selectBaud_eq_none_iff {c b : Nat} :
    selectBaud c b = none ↔ b = 0 ∨ (roundedDivisor 16 c b = 0 ∧ roundedDivisor 8 c b = 0) := by
  unfold selectBaud
  by_cases hb : b = 0
  · simp [hb]
  by_cases infeasible : roundedDivisor 16 c b = 0 ∧ roundedDivisor 8 c b = 0
  · simp [infeasible]
  · simp only [hb, infeasible, if_false, or_false, iff_false]
    split_ifs <;> exact not_false

/-- R129 (c): where factor 8 is infeasible, so is factor 16. -/
theorem selectBaud_eq_none_iff_lt {c b : Nat} : selectBaud c b = none ↔ b = 0 ∨ c < 4 * b := by
  rw [selectBaud_eq_none_iff]
  refine or_congr_right' fun hb => ?_
  rw [roundedDivisor_sixteen_eq_zero_iff hb, roundedDivisor_eight_eq_zero_iff hb]
  omega

/-! ## The operation -/

theorem selectResult_eq_unachievable_iff {r : Option (Nat × Bool)} : selectResult r = .unachievable ↔ r = none := by
  cases r <;> simp [selectResult]

theorem exec_selectBaud (clock baud : Word) (s : State) :
    exec (.selectBaud clock baud) s =
      .next { s with result := selectResult (selectBaud clock.toNat baud.toNat) } := rfl

/-- Settles O6: each clause is the equation of one branch of the selector, the last is R129 (c). -/
theorem selectBaudFollowsPseudocode : Obligations.SelectBaudFollowsPseudocode := by
  intro clock baud s
  refine ⟨_, exec_selectBaud clock baud s, ?_⟩
  rintro c b d16 d8 rfl rfl h16 h8
  rw [← roundedDivisor_sixteen] at h16
  rw [← roundedDivisor_eight] at h8
  subst h16 h8
  refine ⟨fun fails => ?_, fun hb z16 n8 => ?_, fun hb n16 n8 => ?_, ?_⟩
  · exact selectResult_eq_unachievable_iff.mpr (selectBaud_eq_none_iff.mpr fails)
  · rw [selectBaud_of_sixteen_zero hb z16 n8, selectResult]
  · rw [← error8_lt_error16_iff, selectBaud_of_both_feasible hb n16 n8]
    exact ⟨fun better => by rw [if_pos better, selectResult],
      fun notBetter => by rw [if_neg notBetter, selectResult]⟩
  · exact selectResult_eq_unachievable_iff.trans selectBaud_eq_none_iff_lt

end Machine
end Sys2Proof
end

section
/-! PROOFS. The frame-format encoder against its pseudocode (R140): the fields of the image for `CTRLC`, each peeled
off the join of R99, and the operation. -/

namespace Sys2Proof
namespace Machine

/-! ## The fields of the image for `CTRLC` (R99) -/

section
variable (msel pm : BitVec 2) (sbs : Bool) (sz10 : BitVec 2) (cpol : Bool)

@[simp] theorem imgCOf_cpol : (imgCOf msel pm sbs sz10 cpol).getLsbD 0 = cpol := by
  rw [imgCOf, bit_append_low _ _ 0 Nat.one_pos, bit_getLsbD]

@[simp] theorem imgCOf_sz10 : (imgCOf msel pm sbs sz10 cpol).extractLsb' 1 2 = sz10 := by
  rw [imgCOf, extract_append_high _ (bit cpol) 0, extract_append_low]

@[simp] theorem imgCOf_sbs : (imgCOf msel pm sbs sz10 cpol).getLsbD 3 = sbs := by
  rw [imgCOf, bit_append_high _ (bit cpol) 2, bit_append_high _ sz10 0, bit_append_low _ _ 0 Nat.one_pos, bit_getLsbD]

@[simp] theorem imgCOf_pm : (imgCOf msel pm sbs sz10 cpol).extractLsb' 4 2 = pm := by
  rw [imgCOf, extract_append_high _ (bit cpol) 3, extract_append_high _ sz10 1, extract_append_high _ (bit sbs) 0,
    extract_append_low]

@[simp] theorem imgCOf_msel : (imgCOf msel pm sbs sz10 cpol).extractLsb' 6 2 = msel := by
  rw [imgCOf, extract_append_high _ (bit cpol) 5, extract_append_high _ sz10 3, extract_append_high _ (bit sbs) 2,
    extract_append_high _ pm 0, BitVec.extractLsb'_eq_self]

end

/-! ## The operation -/

/-- R140: the image and the three flags are the encoder's; the state around the result is the one before. -/
theorem exec_encodeFrame (mode : Half) (s : State) :
    exec (.encodeFrame mode) s =
      .next { s with
        result := .frame (encodeFrame mode).imgC (mode.getLsbD 11) (mode.getLsbD 4) (mode.getLsbD 3) } := rfl

/-- Settles O9: the image returned is the encoder's, and each of its fields is the field of `mode` put there. -/
theorem encodeFrameFollowsPseudocode : Obligations.EncodeFrameFollowsPseudocode := by
  intro mode s
  exact ⟨(encodeFrame mode).imgC, exec_encodeFrame mode s, imgCOf_msel .., imgCOf_pm .., imgCOf_sbs ..,
    imgCOf_sz10 .., imgCOf_cpol ..⟩

end Machine
end Sys2Proof
end

section
/-! PROOFS. The host's side of the transmit queue (R180) and the end of a frame (R188): what a free host's push
answers, the kick, what the log records, and the hand-over of the shift register. -/

namespace Sys2Proof
namespace Machine

/-! ## `HOST_ENQUEUE` (R180) -/

/-- A free host in main context takes step E1. -/
theorem exec_hostEnqueue_of_free {s : State} (b : Byte) (main : s.isr = none) (free : s.host = none) :
    exec (.hostEnqueue b) s = enqueuePush b s := by
  simp only [exec, execHostEnqueue, inMain_eq_true.mpr main, if_true, free]

/-- A host that has pushed takes step E2. -/
theorem exec_hostEnqueue_of_pushed {s : State} (b : Byte) (main : s.isr = none) (pushed : s.host = some .enqueue2) :
    exec (.hostEnqueue b) s = enqueueKick s := by
  simp only [exec, execHostEnqueue, inMain_eq_true.mpr main, if_true, pushed]

/-- Step E1 with room: the byte goes to the back, and the hook decides whether a kick is still due. -/
theorem enqueuePush_of_room {s : State} (b : Byte) (room : s.txq.length < s.params.txCap) :
    enqueuePush b s =
      if s.hook then done { s with txq := s.txq ++ [b], host := some .enqueue2 } .pending
      else done { s with txq := s.txq ++ [b] } .ok := by
  simp only [enqueuePush, tryPush_room b room]

/-- Step E1 on a full queue. -/
theorem enqueuePush_of_full {s : State} (b : Byte) (full : s.params.txCap ≤ s.txq.length) :
    enqueuePush b s = done s .queueFull := by
  simp only [enqueuePush, tryPush_full b full]

/-- Step E2: the read-modify-write of the kick changes `txc` alone (R181). -/
theorem enqueueKick_eq (s : State) : enqueueKick s = done { s with txc := true, host := none } .ok := by
  rw [enqueueKick, kick_eq]

/-- Settles O25: step E1 by the queue's contract and the hook, step E2 by what the kick does. -/
theorem enqueuePushes : Obligations.EnqueuePushes := by
  intro s b main
  refine ⟨fun free room hooked => ?_, fun free room unhooked => ?_, fun free full => ?_, fun pushed => ?_⟩
  · rw [exec_hostEnqueue_of_free b main free, enqueuePush_of_room b room, if_pos hooked]
    rfl
  · rw [exec_hostEnqueue_of_free b main free, enqueuePush_of_room b room, if_neg (Bool.eq_false_iff.mp unhooked)]
    rfl
  · rw [exec_hostEnqueue_of_free b main free, enqueuePush_of_full b full]
    rfl
  · rw [exec_hostEnqueue_of_pushed b main pushed, enqueueKick_eq]
    rfl

/-! ## `HW_TX_DONE` (R188) -/

/-- R150, R173: the log says `Garbled` of a garbled frame and of one whose format is unspecified. -/
theorem lineRecord_eq_garbled_iff {fr : TxFrame} :
    lineRecord fr = .garbled ↔ fr.garbled = true ∨ lineFrame fr.fmt fr.byte = none := by
  cases g : fr.garbled <;> simp [lineRecord, g]

/-- Of every other frame the log records the byte and its format. -/
theorem lineRecord_of_ne_garbled {fr : TxFrame} (h : lineRecord fr ≠ .garbled) :
    lineRecord fr = .frame fr.byte fr.fmt := by
  unfold lineRecord at h ⊢
  split at h
  · exact absurd rfl h
  · rw [if_neg ‹_›]

theorem shiftOut_of_waiting {s : State} {b : Byte} (waits : s.txb = some b) :
    shiftOut s = absorb b { s with txb := none } := by
  simp only [shiftOut, waits]

theorem shiftOut_of_empty {s : State} (empty : s.txb = none) : shiftOut s = { s with tsr := none, txc := true } := by
  simp only [shiftOut, empty]

/-- A frame in the shift register completes whatever else the state holds: `TXEN` and `isr` are not read. -/
theorem exec_hwTxDone_of_busy {s : State} {fr : TxFrame} (busy : s.tsr = some fr) :
    exec .hwTxDone s = done (shiftOut { s with txLine := s.txLine ++ [lineRecord fr] }) .none := by
  simp only [exec, execHwTxDone, busy]

/-- Settles O31: the entry of the log is `lineRecord`, and the holding register decides what the shift register
takes. -/
theorem txDoneCompletesTheFrame : Obligations.TxDoneCompletesTheFrame := by
  intro s fr busy
  refine ⟨lineRecord fr, lineRecord_eq_garbled_iff, lineRecord_of_ne_garbled, fun b waits => ?_, fun empty => ?_⟩
  · rw [exec_hwTxDone_of_busy busy, shiftOut_of_waiting (s := { s with txLine := s.txLine ++ [lineRecord fr] }) waits]
    rfl
  · rw [exec_hwTxDone_of_busy busy, shiftOut_of_empty (s := { s with txLine := s.txLine ++ [lineRecord fr] }) empty]
    rfl

end Machine
end Sys2Proof
end

section
/-! PROOFS. The receive path: the two steps of `ISR_RXC` after its entry (R212), and the host's side of the receive
queue (R214). -/

namespace Sys2Proof
namespace Machine

/-! ## `ISR_RXC` (R212) -/

/-- A handler at its first position takes step X1. -/
theorem exec_isrRxc_of_rxc1 {s : State} (running : s.isr = some .rxc1) : exec .isrRxc s = rxcRead s := by
  simp only [exec, execIsrRxc, running]

/-- A handler that holds a byte takes step X2. -/
theorem exec_isrRxc_of_rxc2 {s : State} {b : Byte} (holds : s.isr = some (.rxc2 b)) :
    exec .isrRxc s = rxcPush b s := by
  simp only [exec, execIsrRxc, holds]

/-- Step X1 on a full input register: the byte moves from the register to the handler. -/
theorem rxcRead_of_full {s : State} {b : Byte} (full : s.rxb = some b) :
    rxcRead s = done { s with rxb := none, isr := some (.rxc2 b) } .none := by
  simp only [rxcRead, dataRead, full]

/-- Step X1 on an empty input register is refused as the read of `DATA` is (U3). -/
theorem rxcRead_of_empty {s : State} (empty : s.rxb = none) : rxcRead s = .refused .dataReadEmpty := by
  simp only [rxcRead, dataRead, empty]

/-- Step X2 with room: the byte goes to the back. -/
theorem rxcPush_of_room {s : State} (b : Byte) (room : s.rxq.length < s.params.rxCap) :
    rxcPush b s = done (returnInterrupt { s with rxq := s.rxq ++ [b] }) .none := by
  simp only [rxcPush, tryPush_room b room]

/-- Step X2 on a full queue: only the ghost count sees the byte (R215). -/
theorem rxcPush_of_full {s : State} (b : Byte) (full : s.params.rxCap ≤ s.rxq.length) :
    rxcPush b s = done (returnInterrupt { s with rxDropped := s.rxDropped + 1 }) .none := by
  simp only [rxcPush, tryPush_full b full]

/-- Settles O43: step X1 by what the input register holds. -/
theorem rxcReadEmptiesTheInputRegister : Obligations.RxcReadEmptiesTheInputRegister := by
  intro s running
  rw [exec_isrRxc_of_rxc1 running]
  exact ⟨fun _ full => rxcRead_of_full full, fun empty => rxcRead_of_empty empty⟩

/-- Settles O44: step X2 by the queue's contract. -/
theorem rxcPushOrSilentDrop : Obligations.RxcPushOrSilentDrop := by
  intro s b holds
  rw [exec_isrRxc_of_rxc2 holds]
  exact ⟨fun room => rxcPush_of_room b room, fun full => rxcPush_of_full b full⟩

/-! ## `HOST_DEQUEUE` (R214) -/

/-- A free host in main context pops the receive queue and returns what the pop answered. -/
theorem exec_hostDequeue_of_free {s : State} (main : s.isr = none) (free : s.host = none) :
    exec .hostDequeue s = done { s with rxq := (tryPop s.rxq).2 } (.popped (tryPop s.rxq).1) := by
  simp only [exec, execHostDequeue, inMain_eq_true.mpr main, free, Option.isNone_none, Bool.and_self, if_true]

/-- Settles O45: the pop's two equations, for a queue with a front and for an empty one. The empty queue is put
back as it was. -/
theorem dequeuePopsTheOldest : Obligations.DequeuePopsTheOldest := by
  intro s main free
  rw [exec_hostDequeue_of_free main free]
  refine ⟨fun b rest front => ?_, fun empty => ?_⟩
  · rw [front, tryPop_cons]
    rfl
  · rw [empty, tryPop_nil, ← empty]
    rfl

end Machine
end Sys2Proof
end

section
/-! PROOFS. Operation words and the schedule (R101, logs 1 and 2): decoding inverts encoding, the low four bits decide the
operation, and the agenda runs in order. -/

namespace Sys2Proof
namespace Machine

/-! ## The fields of an operation word (log 2) -/

/-- R101: the low four bits of an operation's word are its selector number. -/
theorem encode_selector (i : Instr) : (encode i).extractLsb' 0 4 = i.selector := by
  cases i <;> exact extract_append_low (n := 68) _ _

/-- The operands stand above the selector and the four bits next to it. -/
theorem extract_operands (x : BitVec 64) (flags sel : BitVec 4) (k l : Nat) :
    (x ++ flags ++ sel).extractLsb' (4 + (4 + k)) l = x.extractLsb' k l := by
  rw [extract_append_high, extract_append_high]

/-- The value of a byte operand, which stands alone above the selector. -/
theorem extract_byte_operand (b : Byte) (sel : BitVec 4) :
    (0#56 ++ b ++ 0#4 ++ sel).extractLsb' 8 8 = b :=
  (extract_operands (0#56 ++ b) 0#4 sel 0 8).trans (extract_append_low ..)

/-- The value of a `mode` operand, likewise. -/
theorem extract_half_operand (w : Half) (sel : BitVec 4) :
    (0#48 ++ w ++ 0#4 ++ sel).extractLsb' 8 16 = w :=
  (extract_operands (0#48 ++ w) 0#4 sel 0 16).trans (extract_append_low ..)

/-! ## Decoding inverts encoding -/

theorem decode_encode_selectBaud (clock baud : Word) :
    decode (encode (.selectBaud clock baud)) = .ok (.selectBaud clock baud) := by
  have low : (encode (.selectBaud clock baud)).extractLsb' 8 32 = clock :=
    (extract_operands (baud ++ clock) 0#4 1#4 0 32).trans (extract_append_low ..)
  have high : (encode (.selectBaud clock baud)).extractLsb' 40 32 = baud :=
    (extract_operands (baud ++ clock) 0#4 1#4 32 32).trans BitVec.extractLsb'_append_eq_left
  simp [decode, encode_selector, Instr.selector, low, high]

theorem decode_encode_init (baud : Word) (mode : Half) :
    decode (encode (.init baud mode)) = .ok (.init baud mode) := by
  have low : (encode (.init baud mode)).extractLsb' 8 32 = baud :=
    (extract_operands (0#16 ++ mode ++ baud) 0#4 4#4 0 32).trans (extract_append_low ..)
  have high : (encode (.init baud mode)).extractLsb' 40 16 = mode := by
    refine (extract_operands (0#16 ++ mode ++ baud) 0#4 4#4 32 16).trans ?_
    rw [extract_append_high _ baud 0, extract_append_low]
  simp [decode, encode_selector, Instr.selector, low, high]

/-- The flags of `CONFIGURE` stand between its selector and its two values, one by one. -/
theorem decode_encode_configure (d : Word) (ds : Bool) (ff : Half) (rx tx : Bool) :
    decode (encode (.configure d ds ff rx tx)) = .ok (.configure d ds ff rx tx) := by
  have divisor : (encode (.configure d ds ff rx tx)).extractLsb' 8 32 = d := by
    rw [encode, extract_append_high _ _ 4, extract_append_high _ (bit ds) 3, extract_append_high _ (bit rx) 2,
      extract_append_high _ (bit tx) 1, extract_append_high _ 0#1 0, extract_append_low]
  have format : (encode (.configure d ds ff rx tx)).extractLsb' 40 16 = ff := by
    rw [encode, extract_append_high _ _ 36, extract_append_high _ (bit ds) 35, extract_append_high _ (bit rx) 34,
      extract_append_high _ (bit tx) 33, extract_append_high _ 0#1 32, extract_append_high _ d 0, extract_append_low]
  have speed : (encode (.configure d ds ff rx tx)).getLsbD 4 = ds := by
    rw [encode, bit_append_high _ _ 0, bit_append_low _ _ 0 Nat.one_pos, bit_getLsbD]
  have receive : (encode (.configure d ds ff rx tx)).getLsbD 5 = rx := by
    rw [encode, bit_append_high _ _ 1, bit_append_high _ (bit ds) 0, bit_append_low _ _ 0 Nat.one_pos, bit_getLsbD]
  have transmit : (encode (.configure d ds ff rx tx)).getLsbD 6 = tx := by
    rw [encode, bit_append_high _ _ 2, bit_append_high _ (bit ds) 1, bit_append_high _ (bit rx) 0,
      bit_append_low _ _ 0 Nat.one_pos, bit_getLsbD]
  simp only [decode, encode_selector, divisor, format, speed, receive, transmit]
  rfl

/-- Under the unused selector the word is one of a data format. -/
theorem decode_of_selector_fifteen {w : OpWord} (h : w.extractLsb' 0 4 = 15#4) : decode w = decodeFormat w := by
  simp [decode, h]

theorem decode_encode_mode (w : Half) : decode (encode (.mode w)) = .ok (.mode w) := by
  have number : (encode (.mode w)).extractLsb' 4 4 = 0#4 := by
    rw [encode, extract_append_high _ _ 0, extract_append_low]
  have value : (encode (.mode w)).extractLsb' 8 16 = w := extract_half_operand w _
  rw [decode_of_selector_fifteen (encode_selector _), decodeFormat, number, value]
  rfl

/-- The fields of an `IMG_C` pattern, peeled off from the lowest (R99). -/
theorem decode_encode_imgC (m p : BitVec 2) (sb : Bool) (y : BitVec 2) (c : Bool) :
    decode (encode (.imgC m p sb y c)) = .ok (.imgC m p sb y c) := by
  have number : (encode (.imgC m p sb y c)).extractLsb' 4 4 = 4#4 := by
    rw [encode, extract_append_high _ _ 0, extract_append_low]
  have msel : (encode (.imgC m p sb y c)).extractLsb' 14 2 = m := by
    rw [encode, extract_append_high _ _ 10, extract_append_high _ 4#4 6, extract_append_high _ (bit c) 5,
      extract_append_high _ y 3, extract_append_high _ (bit sb) 2, extract_append_high _ p 0, extract_append_low]
  have parity : (encode (.imgC m p sb y c)).extractLsb' 12 2 = p := by
    rw [encode, extract_append_high _ _ 8, extract_append_high _ 4#4 4, extract_append_high _ (bit c) 3,
      extract_append_high _ y 1, extract_append_high _ (bit sb) 0, extract_append_low]
  have stop : (encode (.imgC m p sb y c)).getLsbD 11 = sb := by
    rw [encode, bit_append_high _ _ 7, bit_append_high _ 4#4 3, bit_append_high _ (bit c) 2, bit_append_high _ y 0,
      bit_append_low _ _ 0 Nat.one_pos, bit_getLsbD]
  have size : (encode (.imgC m p sb y c)).extractLsb' 9 2 = y := by
    rw [encode, extract_append_high _ _ 5, extract_append_high _ 4#4 1, extract_append_high _ (bit c) 0,
      extract_append_low]
  have polarity : (encode (.imgC m p sb y c)).getLsbD 8 = c := by
    rw [encode, bit_append_high _ _ 4, bit_append_high _ 4#4 0, bit_append_low _ _ 0 Nat.one_pos, bit_getLsbD]
  rw [decode_of_selector_fifteen (encode_selector _), decodeFormat, number, msel, parity, stop, size, polarity]
  rfl

/-- Settles O1, by the rows of the table: the rows without operands and the image rows made of flags alone have
finitely many words. -/
theorem decodeEncodeRoundTrip : Obligations.DecodeEncodeRoundTrip := by
  intro i
  cases i
  case selectBaud clock baud => exact decode_encode_selectBaud clock baud
  case encodeFrame mode =>
    have value : (encode (.encodeFrame mode)).extractLsb' 8 16 = mode := extract_half_operand mode _
    simp [decode, encode_selector, Instr.selector, value]
  case configure d ds ff rx tx => exact decode_encode_configure d ds ff rx tx
  case init baud mode => exact decode_encode_init baud mode
  case hostEnqueue b =>
    have value : (encode (.hostEnqueue b)).extractLsb' 8 8 = b := extract_byte_operand b _
    simp [decode, encode_selector, Instr.selector, value]
  case hwRxFrame b =>
    have value : (encode (.hwRxFrame b)).extractLsb' 8 8 = b := extract_byte_operand b _
    simp [decode, encode_selector, Instr.selector, value]
  case mode w => exact decode_encode_mode w
  case imgA d => cases d <;> rfl
  case imgB0 z => cases z <;> rfl
  case imgB1 r t z => cases r <;> cases t <;> cases z <;> rfl
  case imgC m p sb y c => exact decode_encode_imgC m p sb y c
  all_goals rfl

/-- Settles O2: each word is a literal, and decoding it is a computation. -/
theorem specWordsDecode : Obligations.SpecWordsDecode :=
  ⟨rfl, rfl, rfl, rfl, rfl, rfl, rfl, rfl, rfl, rfl, rfl, rfl, rfl, rfl⟩

/-- Settles O3, by the sixteen values of the low four bits: fifteen of them are an operation's number. -/
theorem selectorNibbleDecidesOperation : Obligations.SelectorNibbleDecidesOperation := by
  intro w known
  generalize number : w.extractLsb' 0 4 = n at known ⊢
  unfold decode
  rw [number]
  fin_cases n
  on_goal 16 => exact absurd rfl known
  all_goals exact ⟨_, rfl, rfl⟩

/-! ## The schedule (log 1) -/

theorem step_of_agenda_nil {s : State} (empty : s.agenda = []) : step s = .next s := by
  simp [step, fetch, empty]

theorem step_of_decode_ok {s : State} {w : OpWord} {rest : List OpWord} {i : Instr} (next : s.agenda = w :: rest)
    (known : decode w = .ok i) : step s = exec i { s with agenda := rest } := by
  simp [step, fetch, next, known]

theorem step_of_decode_error {s : State} {w : OpWord} {rest : List OpWord} {e : DecodeError}
    (next : s.agenda = w :: rest) (unknown : decode w = .error e) : step s = .refused (.undecoded e) := by
  simp [step, fetch, next, unknown]

/-- Settles O4: the three cases of the fetch and the decoder. -/
theorem stepRunsScheduledOperation : Obligations.StepRunsScheduledOperation := fun _ =>
  ⟨fun _ _ _ next known => step_of_decode_ok next known, fun _ _ _ next unknown => step_of_decode_error next unknown,
    step_of_agenda_nil⟩

/-! No operation reads or writes the agenda: putting one in place commutes with every effect. -/

/-- The state with another agenda. -/
def State.withAgenda (a : List OpWord) (s : State) : State := { s with agenda := a }

/-- The outcome with another agenda in its next state. -/
def outcomeWithAgenda (a : List OpWord) : Host.Outcome State Fault Refusal → Host.Outcome State Fault Refusal
  | .next s => .next (s.withAgenda a)
  | .fault r => .fault r
  | .refused r => .refused r

section
variable (a : List OpWord) (s : State)

theorem done_withAgenda (r : OpResult) : done (s.withAgenda a) r = outcomeWithAgenda a (done s r) := rfl

theorem blocked_withAgenda : blocked (s.withAgenda a) = outcomeWithAgenda a (blocked s) := rfl

theorem garble_withAgenda (c : Bool) : garble c (s.withAgenda a) = (garble c s).withAgenda a := by cases c <;> rfl

theorem writeCtrlA_withAgenda (v : Byte) : writeCtrlA v (s.withAgenda a) = (writeCtrlA v s).withAgenda a :=
  garble_withAgenda a { s with u2x := v.getLsbD 1, txc := s.txc || v.getLsbD 6 } _

theorem writeCtrlC_withAgenda (v : Byte) : writeCtrlC v (s.withAgenda a) = (writeCtrlC v s).withAgenda a :=
  garble_withAgenda a { s with ctrlC := v } _

theorem writeBaud_withAgenda (v : Word) : writeBaud v (s.withAgenda a) = (writeBaud v s).withAgenda a :=
  garble_withAgenda a { s with baud := v } _

@[simp] theorem withAgenda_isr : (s.withAgenda a).isr = s.isr := rfl
@[simp] theorem withAgenda_host : (s.withAgenda a).host = s.host := rfl
@[simp] theorem withAgenda_inMain : (s.withAgenda a).inMain = s.inMain := rfl
@[simp] theorem withAgenda_txb : (s.withAgenda a).txb = s.txb := rfl
@[simp] theorem withAgenda_tsr : (s.withAgenda a).tsr = s.tsr := rfl
@[simp] theorem withAgenda_rxb : (s.withAgenda a).rxb = s.rxb := rfl
@[simp] theorem withAgenda_txq : (s.withAgenda a).txq = s.txq := rfl
@[simp] theorem withAgenda_rxq : (s.withAgenda a).rxq = s.rxq := rfl
@[simp] theorem withAgenda_hook : (s.withAgenda a).hook = s.hook := rfl
@[simp] theorem withAgenda_params : (s.withAgenda a).params = s.params := rfl
@[simp] theorem withAgenda_draws : (s.withAgenda a).draws = s.draws := rfl
@[simp] theorem withAgenda_txen : (s.withAgenda a).txen = s.txen := rfl
@[simp] theorem withAgenda_rxen : (s.withAgenda a).rxen = s.rxen := rfl
@[simp] theorem withAgenda_fmt : (s.withAgenda a).fmt = s.fmt := rfl

@[simp] theorem withAgenda_entryEnabled (src : Source) : (s.withAgenda a).entryEnabled src = s.entryEnabled src := by
  have requests : (s.withAgenda a).request = s.request := by funext k; cases k <;> rfl
  have enables : (s.withAgenda a).enable = s.enable := by funext k; cases k <;> rfl
  simp [State.entryEnabled, State.outranked, requests, enables]

theorem absorbWaiting_withAgenda : absorbWaiting (s.withAgenda a) = (absorbWaiting s).withAgenda a := by
  simp only [absorbWaiting, withAgenda_tsr, withAgenda_txb]
  split <;> rfl

theorem loseTx_withAgenda (d : LossDraw) : loseTx d (s.withAgenda a) = (loseTx d s).withAgenda a :=
  absorbWaiting_withAgenda a
    { s with tsr := s.tsr.filter fun _ => !d.loseTsr, txb := s.txb.filter fun _ => !d.loseTxb }

theorem takeDraw_withAgenda : takeDraw (s.withAgenda a) = ((takeDraw s).1, (takeDraw s).2.withAgenda a) := by
  simp only [takeDraw, withAgenda_draws]
  split <;> rfl

theorem disableLoss_withAgenda (x y : Bool) :
    disableLoss x y (s.withAgenda a) = (disableLoss x y s).withAgenda a := by
  cases x <;> cases y <;> simp [disableLoss, takeDraw_withAgenda, loseTx_withAgenda] <;> rfl

theorem writeCtrlB_withAgenda (v : Byte) : writeCtrlB v (s.withAgenda a) = (writeCtrlB v s).withAgenda a := by
  unfold writeCtrlB
  rw [← disableLoss_withAgenda, ← garble_withAgenda]
  rfl

theorem confEffect_withAgenda (k : ConfStep) (cfg : Cfg) :
    confEffect k cfg (s.withAgenda a) = (confEffect k cfg s).withAgenda a := by
  cases k
  case c1 | c3 | c6 => exact writeCtrlB_withAgenda a s _
  case c2 => exact writeCtrlC_withAgenda a s _
  case c4 => exact writeBaud_withAgenda a s _
  case c5 => exact writeCtrlA_withAgenda a s _
  case c7 => rfl

theorem configureStep_withAgenda (k : ConfStep) (cfg : Cfg) :
    configureStep k cfg (s.withAgenda a) = outcomeWithAgenda a (configureStep k cfg s) := by
  cases k <;> simp only [configureStep, nextConfStep, confEffect_withAgenda] <;> rfl

theorem initStep_withAgenda (k : ConfStep) (cfg : Cfg) :
    initStep k cfg (s.withAgenda a) = outcomeWithAgenda a (initStep k cfg s) := by
  cases k <;> simp only [initStep, nextConfStep, confEffect_withAgenda] <;> rfl

theorem initStart_withAgenda (baud : Word) (mode : Half) :
    initStart baud mode (s.withAgenda a) = outcomeWithAgenda a (initStart baud mode s) := by
  simp only [initStart, withAgenda_params]
  split <;> rfl

theorem enqueueKick_withAgenda : enqueueKick (s.withAgenda a) = outcomeWithAgenda a (enqueueKick s) := by
  rw [enqueueKick_eq, enqueueKick_eq]
  rfl

theorem enqueuePush_withAgenda (b : Byte) :
    enqueuePush b (s.withAgenda a) = outcomeWithAgenda a (enqueuePush b s) := by
  cases hooked : s.hook <;>
    simp only [enqueuePush, withAgenda_params, withAgenda_txq, withAgenda_hook, hooked, if_true, Bool.false_eq_true,
      if_false] <;> split <;> rfl

theorem dataWrite_withAgenda (b : Byte) :
    dataWrite b (s.withAgenda a) = (dataWrite b s).map (State.withAgenda a) := by
  cases on : s.txen <;>
    simp only [dataWrite, withAgenda_txen, withAgenda_txb, withAgenda_tsr, on, if_true, Bool.false_eq_true, if_false]
  · rfl
  · split <;> rfl

theorem pumpWrite_withAgenda (r : Option Byte) :
    pumpWrite r (s.withAgenda a) = outcomeWithAgenda a (pumpWrite r s) := by
  cases r
  case none => rfl
  case some b =>
    rw [pumpWrite, dataWrite_withAgenda, pumpWrite]
    cases dataWrite b s <;> rfl

theorem pumpStep_withAgenda : pumpStep (s.withAgenda a) = outcomeWithAgenda a (pumpStep s) := by
  simp only [pumpStep, withAgenda_isr]
  split
  case h_3 | h_4 => exact pumpWrite_withAgenda a s _
  all_goals rfl

theorem enterHandler_withAgenda (src : Source) :
    enterHandler src (s.withAgenda a) = outcomeWithAgenda a (enterHandler src s) := by
  simp only [enterHandler, withAgenda_entryEnabled]
  split
  · cases src <;> rfl
  · rfl

theorem rxcRead_withAgenda : rxcRead (s.withAgenda a) = outcomeWithAgenda a (rxcRead s) := by
  simp only [rxcRead, dataRead, withAgenda_rxb]
  cases s.rxb <;> rfl

theorem rxcPush_withAgenda (b : Byte) : rxcPush b (s.withAgenda a) = outcomeWithAgenda a (rxcPush b s) := by
  simp only [rxcPush, withAgenda_params, withAgenda_rxq]
  split <;> rfl

theorem shiftOut_withAgenda : shiftOut (s.withAgenda a) = (shiftOut s).withAgenda a := by
  simp only [shiftOut, withAgenda_txb]
  split <;> rfl

/-- An operation's outcome is the same whatever is scheduled after it, and the rest of the schedule stays. -/
theorem exec_withAgenda (i : Instr) : exec i (s.withAgenda a) = outcomeWithAgenda a (exec i s) := by
  cases i <;> simp only [exec]
  case configure d ds ff rx tx =>
    cases main : s.inMain <;>
      simp only [execConfigure, withAgenda_inMain, withAgenda_host, main, if_true, Bool.false_eq_true, if_false]
    · rfl
    · split
      · exact configureStep_withAgenda a s _ _
      · exact configureStep_withAgenda a s _ _
      all_goals rfl
  case init baud mode =>
    cases main : s.inMain <;>
      simp only [execInit, withAgenda_inMain, withAgenda_host, main, if_true, Bool.false_eq_true, if_false]
    · rfl
    · split
      · exact initStart_withAgenda a s _ _
      · exact initStep_withAgenda a s _ _
      all_goals rfl
  case hostDisable =>
    cases free : s.inMain && s.host.isNone <;>
      simp only [execHostDisable, withAgenda_inMain, withAgenda_host, writeCtrlB_withAgenda, free, if_true,
        Bool.false_eq_true, if_false] <;> rfl
  case hostEnqueue b =>
    cases main : s.inMain <;>
      simp only [execHostEnqueue, withAgenda_inMain, withAgenda_host, main, if_true, Bool.false_eq_true, if_false]
    · rfl
    · split
      · exact enqueuePush_withAgenda a s _
      · exact enqueueKick_withAgenda a s
      all_goals rfl
  case txkick =>
    cases main : s.inMain <;>
      simp only [execTxkick, withAgenda_inMain, withAgenda_host, main, if_true, Bool.false_eq_true, if_false]
    · rfl
    · split
      · exact enqueueKick_withAgenda a s
      all_goals rfl
  case hostDequeue =>
    cases free : s.inMain && s.host.isNone <;>
      simp only [execHostDequeue, withAgenda_inMain, withAgenda_host, free, if_true, Bool.false_eq_true, if_false] <;>
      rfl
  case isrRxc =>
    simp only [execIsrRxc, withAgenda_isr]
    split
    · exact enterHandler_withAgenda a s _
    · exact rxcRead_withAgenda a s
    · exact rxcPush_withAgenda a s _
    all_goals rfl
  case isrUdre =>
    simp only [execIsrUdre, withAgenda_isr]
    split
    · exact enterHandler_withAgenda a s _
    · exact pumpStep_withAgenda a s
    · exact pumpStep_withAgenda a s
    all_goals rfl
  case isrTxc =>
    simp only [execIsrTxc, withAgenda_isr]
    split
    · exact enterHandler_withAgenda a s _
    · exact pumpStep_withAgenda a s
    · exact pumpStep_withAgenda a s
    all_goals rfl
  case pump => exact pumpStep_withAgenda a s
  case hwTxDone =>
    simp only [execHwTxDone, withAgenda_tsr]
    split
    · rename_i fr busy
      exact congrArg (done · .none) (shiftOut_withAgenda a { s with txLine := s.txLine ++ [lineRecord fr] })
    · rfl
  case hwRxFrame b =>
    cases arrives : s.rxen && deliverable (fmtSize3 s.fmt) b <;>
      simp only [execHwRxFrame, withAgenda_rxen, withAgenda_fmt, withAgenda_rxb, arrives, if_true, Bool.false_eq_true,
        if_false]
    · rfl
    · split <;> rfl
  all_goals rfl

end

/-- The machine's run goes on where its first step leads. -/
theorem run_succ_of_next (M : Host.Core) {s t : M.State} (n : Nat) (h : M.step s = .next t) :
    M.run (n + 1) s = M.run n t := by
  simp only [Host.Core.run, h]

theorem run_succ_of_fault (M : Host.Core) {s : M.State} {r : M.Fault} (n : Nat) (h : M.step s = .fault r) :
    M.run (n + 1) s = .fault r := by
  simp only [Host.Core.run, h]

theorem run_succ_of_refused (M : Host.Core) {s : M.State} {r : M.Refusal} (n : Nat) (h : M.step s = .refused r) :
    M.run (n + 1) s = .refused r := by
  simp only [Host.Core.run, h]

/-- Settles O5, by induction on the schedule: the first step decodes the first word to its operation, whose outcome
carries the rest of the agenda. -/
theorem agendaRunsInOrder : Obligations.AgendaRunsInOrder := by
  intro ops s
  change core.run ops.length (s.withAgenda (ops.map encode)) = runOps ops (s.withAgenda [])
  induction ops generalizing s with
  | nil => rfl
  | cons i ops ih =>
    have first : core.step (s.withAgenda ((i :: ops).map encode)) = outcomeWithAgenda (ops.map encode) (exec i s) :=
      (step_of_decode_ok (s := s.withAgenda _) rfl (decodeEncodeRoundTrip i)).trans (exec_withAgenda _ s i)
    rw [runOps, exec_withAgenda]
    cases outcome : exec i s <;> rw [outcome] at first
    case next t => exact (run_succ_of_next core _ first).trans (ih t)
    case fault r => exact run_succ_of_fault core _ first
    case refused r => exact run_succ_of_refused core _ first

end Machine
end Sys2Proof
end

section
/-! PROOFS. The facts about the selector (R129) and the meaning of its comparison (R125, R126): bounds on the rounded
divisors, the divisors it can return, and the two errors as distances of the produced rates. -/

namespace Sys2Proof
namespace Machine

/-! ## Bounds on the rounded divisors (R129) -/

section
variable {c b : Nat}

/-- The quotient of R121 for factor 16, as the two inequalities that determine it. -/
theorem roundedDivisor_sixteen_bounds (hb : 1 ≤ b) :
    16 * (b * roundedDivisor 16 c b) ≤ c + 8 * b ∧ c + 8 * b < 16 * (b * roundedDivisor 16 c b) + 16 * b := by
  have low := Nat.mul_div_le (c + 8 * b) (16 * b)
  have high := Nat.lt_mul_div_succ (c + 8 * b) (b := 16 * b) (by omega)
  rw [roundedDivisor_sixteen]
  rw [Nat.mul_assoc] at low
  rw [Nat.mul_succ, Nat.mul_assoc] at high
  exact ⟨low, high⟩

/-- Likewise for factor 8. -/
theorem roundedDivisor_eight_bounds (hb : 1 ≤ b) :
    8 * (b * roundedDivisor 8 c b) ≤ c + 4 * b ∧ c + 4 * b < 8 * (b * roundedDivisor 8 c b) + 8 * b := by
  have low := Nat.mul_div_le (c + 4 * b) (8 * b)
  have high := Nat.lt_mul_div_succ (c + 4 * b) (b := 8 * b) (by omega)
  rw [roundedDivisor_eight]
  rw [Nat.mul_assoc] at low
  rw [Nat.mul_succ, Nat.mul_assoc] at high
  exact ⟨low, high⟩

/-- R129 (d) for factor 16: the residual is at most half a step. -/
theorem residual_sixteen_le (hb : 1 ≤ b) : |(c : ℤ) - 16 * b * roundedDivisor 16 c b| ≤ 8 * b := by
  obtain ⟨low, high⟩ := roundedDivisor_sixteen_bounds (c := c) hb
  rw [mul_assoc, ← Nat.cast_mul, abs_le]
  omega

/-- R129 (d) for factor 8. -/
theorem residual_eight_le (hb : 1 ≤ b) : |(c : ℤ) - 8 * b * roundedDivisor 8 c b| ≤ 4 * b := by
  obtain ⟨low, high⟩ := roundedDivisor_eight_bounds (c := c) hb
  rw [mul_assoc, ← Nat.cast_mul, abs_le]
  omega

/-- R129 (e): the two divisors differ from a factor of two by at most one. -/
theorem roundedDivisor_eight_near (hb : 1 ≤ b) (h16 : 1 ≤ roundedDivisor 16 c b) :
    roundedDivisor 8 c b = 2 * roundedDivisor 16 c b - 1 ∨ roundedDivisor 8 c b = 2 * roundedDivisor 16 c b ∨
      roundedDivisor 8 c b = 2 * roundedDivisor 16 c b + 1 := by
  obtain ⟨low16, high16⟩ := roundedDivisor_sixteen_bounds (c := c) hb
  obtain ⟨low8, high8⟩ := roundedDivisor_eight_bounds (c := c) hb
  have above : 2 * roundedDivisor 8 c b < 4 * roundedDivisor 16 c b + 3 :=
    Nat.lt_of_mul_lt_mul_left (a := b) (by linarith)
  have below : 4 * roundedDivisor 16 c b < 2 * roundedDivisor 8 c b + 3 :=
    Nat.lt_of_mul_lt_mul_left (a := b) (by linarith)
  omega

/-- R129 (f) for factor 16. -/
theorem roundedDivisor_sixteen_le (hc : c < 2 ^ 32) (hb : 1 ≤ b) : roundedDivisor 16 c b ≤ 2 ^ 28 := by
  rw [roundedDivisor_sixteen, ← Nat.lt_succ_iff, Nat.div_lt_iff_lt_mul (by omega)]
  omega

/-- R129 (f) for factor 8. -/
theorem roundedDivisor_eight_le (hc : c < 2 ^ 32) (hb : 1 ≤ b) : roundedDivisor 8 c b ≤ 2 ^ 29 := by
  rw [roundedDivisor_eight, ← Nat.lt_succ_iff, Nat.div_lt_iff_lt_mul (by omega)]
  omega

/-- R129 (b): where factor 16 is infeasible, factor 8 divides by one. -/
theorem roundedDivisor_eight_eq_one (hb : 1 ≤ b) (low : 4 * b ≤ c) (high : c < 8 * b) : roundedDivisor 8 c b = 1 := by
  have pos := mt (roundedDivisor_eight_eq_zero_iff (Nat.ne_of_gt hb)).mp (Nat.not_lt.mpr low)
  have small : roundedDivisor 8 c b < 2 := by
    rw [roundedDivisor_eight, Nat.div_lt_iff_lt_mul (by omega)]
    omega
  omega

/-- What the selector returns is one of the two divisors, and never 0 (R122 to R126). -/
theorem selectBaud_eq_some {d : Nat} {ds : Bool} (h : selectBaud c b = some (d, ds)) :
    d ≠ 0 ∧ (d = roundedDivisor 16 c b ∨ d = roundedDivisor 8 c b) := by
  have feasible := (not_iff_not.mpr selectBaud_eq_none_iff).mp (h ▸ Option.some_ne_none (d, ds))
  push Not at feasible
  obtain ⟨hb, some_factor⟩ := feasible
  by_cases h16 : roundedDivisor 16 c b = 0
  · rw [selectBaud_of_sixteen_zero hb h16 (some_factor h16)] at h
    obtain ⟨rfl, -⟩ := Prod.mk.inj (Option.some.inj h)
    exact ⟨some_factor h16, .inr rfl⟩
  by_cases h8 : roundedDivisor 8 c b = 0
  · have only16 : selectBaud c b = some (roundedDivisor 16 c b, false) := by simp [selectBaud, hb, h16, h8]
    obtain ⟨rfl, -⟩ := Prod.mk.inj (Option.some.inj (only16.symm.trans h))
    exact ⟨h16, .inl rfl⟩
  · rw [selectBaud_of_both_feasible hb h16 h8] at h
    split at h <;> obtain ⟨rfl, -⟩ := Prod.mk.inj (Option.some.inj h)
    · exact ⟨h8, .inr rfl⟩
    · exact ⟨h16, .inl rfl⟩

/-- R129 (f), R160: a divisor the selector returns is one `CONFIGURE` is specified for. -/
theorem selectBaud_divisor_range (hc : c < 2 ^ 32) {d : Nat} {ds : Bool} (h : selectBaud c b = some (d, ds)) :
    1 ≤ d ∧ d ≤ 2 ^ 29 := by
  have hb : 1 ≤ b := by
    by_contra zero
    rw [selectBaud_eq_none_iff.mpr (.inl (by omega))] at h
    cases h
  obtain ⟨pos, rfl | rfl⟩ := selectBaud_eq_some h
  · exact ⟨Nat.pos_of_ne_zero pos, (roundedDivisor_sixteen_le hc hb).trans (by decide)⟩
  · exact ⟨Nat.pos_of_ne_zero pos, roundedDivisor_eight_le hc hb⟩

end

/-- Settles O7: the facts (a) to (g) of R129, each by its own lemma; the boundary values are computed. -/
theorem selectorFacts : Obligations.SelectorFacts := by
  refine ⟨fun c b hc hb _ => ?_, fun c => selectBaud_eq_none_iff.mpr (.inl rfl), by decide, by decide, by decide,
    by decide, by decide, by decide, by decide⟩
  have hb0 : b ≠ 0 := Nat.ne_of_gt hb
  have zero16 := roundedDivisor_sixteen_eq_zero_iff (c := c) hb0
  have zero8 := roundedDivisor_eight_eq_zero_iff (c := c) hb0
  refine ⟨by omega, by omega, by omega, fun low high => ?_, ?_, residual_sixteen_le hb, residual_eight_le hb,
    roundedDivisor_eight_near hb, roundedDivisor_sixteen_le hc hb, roundedDivisor_eight_le hc hb,
    fun d ds h => selectBaud_divisor_range hc h⟩
  · have one := roundedDivisor_eight_eq_one hb low high
    refine ⟨zero16.mpr high, one, ?_⟩
    rw [selectBaud_of_sixteen_zero hb0 (zero16.mpr high) (by omega), one]
  · rw [selectBaud_eq_none_iff_lt, or_iff_right hb0]

/-! ## The errors as distances of rates (R125) -/

/-- The distance of the produced rate `c / (f * d)` from the request, over one denominator. -/
theorem rate_distance (c b f d : ℚ) (hd : 0 < f * d) : |c / (f * d) - b| = |c - f * b * d| / (f * d) := by
  rw [div_sub' hd.ne', abs_div, abs_of_pos hd]
  ring_nf

/-- R125: the integer errors compare as the distances of the two rates do. -/
theorem error8_lt_error16_iff_nearer (c b : Nat) {d16 d8 : Nat} (h16 : d16 ≠ 0) (h8 : d8 ≠ 0) :
    error8 c b d16 d8 < error16 c b d16 d8 ↔
      |(c : ℚ) / (8 * d8) - b| < |(c : ℚ) / (16 * d16) - b| := by
  have p16 : (0 : ℚ) < 16 * d16 := by positivity
  have p8 : (0 : ℚ) < 8 * d8 := by positivity
  rw [rate_distance _ _ _ _ p8, rate_distance _ _ _ _ p16, div_lt_div_iff₀ p8 p16, ← Nat.cast_lt (α := ℚ)]
  have e16 : (error16 c b d16 d8 : ℚ) = d8 * |(c : ℚ) - 16 * b * d16| := by exact_mod_cast error16_cast c b d16 d8
  have e8 : (error8 c b d16 d8 : ℚ) = 2 * d16 * |(c : ℚ) - 8 * b * d8| := by exact_mod_cast error8_cast c b d16 d8
  rw [e16, e8]
  constructor <;> intro h <;> linarith

/-- Settles O8: with both factors feasible the comparison of the errors is that of the distances. -/
theorem selectorPicksTheNearerRate : Obligations.SelectorPicksTheNearerRate := by
  intro c b feasible hb
  have hb0 : b ≠ 0 := Nat.ne_of_gt hb
  have h16 : roundedDivisor 16 c b ≠ 0 := by rw [Ne, roundedDivisor_sixteen_eq_zero_iff hb0]; omega
  have h8 : roundedDivisor 8 c b ≠ 0 := by rw [Ne, roundedDivisor_eight_eq_zero_iff hb0]; omega
  have nearer := error8_lt_error16_iff_nearer c b h16 h8
  refine ⟨fun better => ?_, fun notBetter => ?_⟩
  · rw [selectBaud_of_both_feasible hb0 h16 h8, if_pos (nearer.mpr better)]
  · rw [selectBaud_of_both_feasible hb0 h16 h8, if_neg (nearer.not.mpr (not_lt.mpr notBetter))]

end Machine
end Sys2Proof
end

section
/-! PROOFS. The encoder and the register images (R147), the data-format rows (log 5), and the line frame (R148, R150). -/

namespace Sys2Proof
namespace Machine

/-! ## The register images give `mode` back (R147) -/

/-- A field of one bit is that bit. -/
theorem extract_one {n : Nat} (x : BitVec n) (k : Nat) : x.extractLsb' k 1 = bit (x.getLsbD k) := by
  ext i hi
  obtain rfl : i = 0 := by omega
  cases h : x.getLsbD k <;> simp [bit, h]

/-- A field of ones in a mask lets the field of the masked word through. -/
theorem extract_masked {n : Nat} (x mask : BitVec n) {k l : Nat} (named : mask.extractLsb' k l = BitVec.allOnes l) :
    (x &&& mask).extractLsb' k l = x.extractLsb' k l := by
  rw [BitVec.extractLsb'_and, named, BitVec.and_allOnes]

/-- A field of zeros in a mask clears the field. -/
theorem extract_masked_zero {n : Nat} (x mask : BitVec n) {k l : Nat} (ignored : mask.extractLsb' k l = 0#l) :
    (x &&& mask).extractLsb' k l = 0#l := by
  rw [BitVec.extractLsb'_and, ignored, BitVec.and_zero]

theorem bit_masked {n : Nat} (x mask : BitVec n) {k : Nat} (named : mask.getLsbD k = true) :
    (x &&& mask).getLsbD k = x.getLsbD k := by
  rw [BitVec.getLsbD_and, named, Bool.and_true]

/-- The encoder reads the named bits of `mode` only (R94). -/
theorem encodeFrame_masked (mode : Half) : encodeFrame (mode &&& 0xCFF8#16) = encodeFrame mode := by
  simp only [encodeFrame, modeRxenBit, modeTxenBit]
  rw [extract_masked _ _ (k := 14) (by decide), extract_masked _ _ (k := 5) (by decide),
    extract_masked _ _ (k := 9) (by decide), bit_masked _ _ (k := 8) (by decide), bit_masked _ _ (k := 7) (by decide),
    bit_masked _ _ (k := 11) (by decide), bit_masked _ _ (k := 4) (by decide), bit_masked _ _ (k := 3) (by decide)]

/-- A word is the join of the fields of `mode`, the ignored ones among them. -/
theorem mode_fields_join (m : Half) :
    m.extractLsb' 14 2 ++ m.extractLsb' 12 2 ++ m.extractLsb' 11 1 ++ m.extractLsb' 9 2 ++ m.extractLsb' 8 1 ++
      m.extractLsb' 7 1 ++ m.extractLsb' 5 2 ++ m.extractLsb' 4 1 ++ m.extractLsb' 3 1 ++ m.extractLsb' 0 3 = m := by
  iterate 9 rw [BitVec.extractLsb'_append_extractLsb'_eq_extractLsb' (by decide)]
  exact BitVec.extractLsb'_eq_self

/-- Settles O10: the images hold the named fields, the mask clears the others, and a word is the join of its fields. -/
theorem modeRecoveredFromImages : Obligations.ModeRecoveredFromImages := by
  intro mode
  refine ⟨?_, encodeFrame_masked mode⟩
  obtain ⟨-, -, -, rxen, txen, csz2, -⟩ :=
    imgB1Of_bits (encodeFrame mode).enableRx (encodeFrame mode).enableTx (encodeFrame mode).sz2
  have join := mode_fields_join (mode &&& 0xCFF8#16)
  rw [extract_masked _ _ (k := 14) (by decide), extract_masked_zero _ _ (k := 12) (by decide),
    extract_masked _ _ (k := 11) (by decide), extract_masked _ _ (k := 9) (by decide),
    extract_masked _ _ (k := 8) (by decide), extract_masked _ _ (k := 7) (by decide),
    extract_masked _ _ (k := 5) (by decide), extract_masked _ _ (k := 4) (by decide),
    extract_masked _ _ (k := 3) (by decide), extract_masked_zero _ _ (k := 0) (by decide)] at join
  simp only [extract_one, rxen, txen, csz2]
  simp only [extract_one] at join
  simpa only [encodeFrame, modeRxenBit, modeTxenBit, imgCOf_msel, imgCOf_pm, imgCOf_sbs, imgCOf_sz10, imgCOf_cpol] using join

/-! ## The data-format rows -/

/-- Settles O11: each row reports its value; an image is the or of its letters' bits. -/
theorem dataFormatsAreValues : Obligations.DataFormatsAreValues := by
  refine ⟨fun w s => ?_, fun d s => ?_, fun z s => ?_, fun r t z s => ?_, fun m p sb y c s => rfl⟩
  · rw [extract_one]
    rfl
  · rw [← imgAOf_eq]
    rfl
  · rw [← imgB0Of_eq]
    rfl
  · rw [← imgB1Of_eq]
    rfl

/-! ## The line frame (R148) -/

/-- R95: the size field as a number. -/
theorem fmtSize3_toNat (f : Fmt) :
    (fmtSize3 f).toNat = (if f.csz2 then 4 else 0) + (f.ctrlC.extractLsb' 1 2).toNat := by
  have join : ∀ (z : Bool) (y : BitVec 2), (bit z ++ y).toNat = (if z then 4 else 0) + y.toNat := by decide
  exact join f.csz2 _

theorem sizeBits_eq_none_iff (size3 : BitVec 3) :
    sizeBits size3 = none ↔ size3.toNat = 4 ∨ size3.toNat = 5 ∨ size3.toNat = 6 := by
  revert size3
  decide

theorem sizeBits_eq_some {size3 : BitVec 3} {n : Nat} (h : sizeBits size3 = some n) :
    n = (if size3.toNat ≤ 3 then 5 + size3.toNat else 9) := by
  unfold sizeBits at h
  split_ifs at h ⊢ <;> simp_all

/-- The exclusive or of bits tells whether an odd number of them is 1. -/
theorem parityOf_eq (bits : List Bool) : parityOf bits = decide (bits.count true % 2 = 1) := by
  induction bits with
  | nil => rfl
  | cons x xs ih =>
    have cons : parityOf (x :: xs) = xor x (parityOf xs) := rfl
    rw [cons, ih, List.count_cons]
    rcases Nat.mod_two_eq_zero_or_one (xs.count true) with h | h <;> cases x <;> simp [Nat.add_mod, h]

theorem parityBits_eq_none_iff (pm : BitVec 2) (data : List Bool) : parityBits pm data = none ↔ pm.toNat = 1 := by
  have range := pm.isLt
  unfold parityBits
  split
  case h_1 zero | h_2 two | h_3 three => simp_all
  case h_4 _ zero two three =>
    change _ ≠ _ at zero two three
    exact ⟨fun _ => by omega, fun _ => rfl⟩

/-- R148: the parity part has one bit if there is parity, and makes the number of ones even or odd. -/
theorem parityBits_eq_some {pm : BitVec 2} {data par : List Bool} (h : parityBits pm data = some par) :
    par.length = (if pm.toNat = 0 then 0 else 1) ∧
      (pm.toNat ≠ 0 → (data ++ par).count true % 2 = (if pm.toNat = 2 then 0 else 1)) := by
  have ones : ∀ p, (data ++ [p]).count true = data.count true + if p = true then 1 else 0 := fun p => by
    rw [List.count_append, List.count_singleton]
    cases p <;> rfl
  unfold parityBits at h
  split at h
  case h_1 no => cases h; simp [no]
  case h_2 even =>
    cases h
    simp only [even, List.length_singleton, ones, parityOf_eq, decide_eq_true_eq]
    refine ⟨rfl, fun _ => ?_⟩
    split_ifs <;> omega
  case h_3 odd =>
    cases h
    simp only [odd, List.length_singleton, ones, parityOf_eq, Bool.not_eq_true', decide_eq_false_iff_not]
    refine ⟨rfl, fun _ => ?_⟩
    split_ifs <;> omega
  case h_4 => cases h

/-- R149: the data bits do not depend on the ninth. -/
theorem dataBits_eq {n : Nat} (b : Byte) (h : n ≤ 9) :
    dataBits n b = (List.range n).map fun i => (b.setWidth 9).getLsbD i := by
  refine List.map_congr_left fun i hi => ?_
  have := List.mem_range.mp hi
  rw [BitVec.getLsbD_setWidth, decide_eq_true (by omega), Bool.true_and]

/-- R150: the formats for which the frame is unspecified. -/
theorem lineFrame_eq_none_iff (f : Fmt) (b : Byte) :
    lineFrame f b = none ↔
      fmtMsel f ≠ 0#2 ∨ fmtCpol f = true ∨ (fmtPm f).toNat = 1 ∨ sizeBits (fmtSize3 f) = none := by
  by_cases special : fmtMsel f ≠ 0#2 ∨ fmtCpol f = true
  · rw [lineFrame, if_pos special]
    tauto
  · rw [lineFrame, if_neg special]
    cases sizeBits (fmtSize3 f) with
    | none => simp
    | some n =>
      rw [Option.map_eq_none_iff, parityBits_eq_none_iff]
      tauto

/-- R148: of what a specified frame is made. -/
theorem lineFrame_eq_some {f : Fmt} {b : Byte} {bits : List Bool} (h : lineFrame f b = some bits) :
    ∃ n par, sizeBits (fmtSize3 f) = some n ∧ parityBits (fmtPm f) (dataBits n b) = some par ∧
      bits = [false] ++ dataBits n b ++ par ++ List.replicate (if fmtSbs f then 2 else 1) true := by
  unfold lineFrame at h
  split at h
  · cases h
  split at h
  · cases h
  · obtain ⟨par, parity, rfl⟩ := Option.map_eq_some_iff.mp h
    refine ⟨_, par, by assumption, parity, ?_⟩
    cases fmtSbs f <;> rfl

/-- Settles O12: the frame is none for the formats of R150, and otherwise it is made of its parts, whose numbers of bits
add up. -/
theorem lineFrameShape : Obligations.LineFrameShape := by
  refine ⟨?_, fun s => ?_⟩
  · rintro f b size3 pm hsize rfl
    rw [← fmtSize3_toNat] at hsize
    subst hsize
    refine ⟨?_, fun bits h => ?_⟩
    · rw [lineFrame_eq_none_iff, sizeBits_eq_none_iff]
      rfl
    · obtain ⟨n, par, size, parity, rfl⟩ := lineFrame_eq_some h
      obtain ⟨len, ones⟩ := parityBits_eq_some parity
      have hn := sizeBits_eq_some size
      have lo : 5 ≤ n ∧ n ≤ 9 := by rw [hn]; split <;> omega
      have datalen : (dataBits n b).length = n := by simp [dataBits]
      refine ⟨n, par, hn, ?_, len, fun hp => ?_, ?_, ?_⟩
      · rw [dataBits_eq b lo.2]
        rfl
      · have hp' : (fmtPm f).toNat ≠ 0 := hp
        rw [if_neg hp'] at len
        have front : (([false] ++ dataBits n b ++ par ++ List.replicate (if fmtSbs f then 2 else 1) true).drop 1).take
            (n + 1) = dataBits n b ++ par := by
          simp [List.take_append, datalen, len]
        rw [front]
        exact ones hp
      all_goals
        simp only [List.length_append, List.length_singleton, List.length_replicate, datalen, len]
        split <;> split <;> omega
  · cases h : s.tsr <;> simp [State.restingLevel, idleLevel, h]

end Machine
end Sys2Proof
end

section
/-! PROOFS. What the moves keep and how they differ: the guards of a handler's entry and of step P2, and the statements
about every step that follow move by move (R24 to R39, R62, R80, R237, R241). -/

namespace Sys2Proof
namespace Machine

/-! ## The guards the moves carry -/

section
variable {s : State} {src : Source}

theorem isr_of_entryEnabled (en : s.entryEnabled src = true) : s.isr = none := by
  simp only [State.entryEnabled, Bool.and_eq_true, Option.isNone_iff_eq_none] at en
  exact en.1.1.1

theorem request_of_entryEnabled (en : s.entryEnabled src = true) : s.request src = true := by
  simp only [State.entryEnabled, Bool.and_eq_true] at en
  exact en.1.1.2

theorem enable_of_entryEnabled (en : s.entryEnabled src = true) : s.enable src = true := by
  simp only [State.entryEnabled, Bool.and_eq_true] at en
  exact en.1.2

end

section
variable {i : Instr} {s : State} {r : Option Byte}

/-- Before step P2 the handler holds what its pop returned. -/
theorem BeforeWrite.heldTx_eq (at_p2 : BeforeWrite i s r) : heldTx s.isr = r.toList := by
  obtain ⟨e, -⟩ | ⟨e, -⟩ := at_p2 <;> rw [e] <;> rfl

theorem BeforeWrite.isr_eq (at_p2 : BeforeWrite i s r) : s.isr = some (.txc2 r) ∨ s.isr = some (.udre2 r) :=
  at_p2.imp And.left And.left

theorem BeforeWrite.isr_ne_none (at_p2 : BeforeWrite i s r) : s.isr ≠ none := by
  obtain e | e := at_p2.isr_eq <;> simp [e]

theorem BeforeWrite.heldRx_eq (at_p2 : BeforeWrite i s r) : heldRx s.isr = [] := by
  obtain e | e := at_p2.isr_eq <;> rw [e] <;> rfl

end

@[simp] theorem heldTx_none : heldTx none = [] := rfl
@[simp] theorem heldTx_txc1 : heldTx (some .txc1) = [] := rfl
@[simp] theorem heldTx_udre1 : heldTx (some .udre1) = [] := rfl
@[simp] theorem heldTx_txc2 (r : Option Byte) : heldTx (some (.txc2 r)) = r.toList := rfl
@[simp] theorem heldTx_udre2 (r : Option Byte) : heldTx (some (.udre2 r)) = r.toList := rfl
@[simp] theorem heldTx_rxc1 : heldTx (some .rxc1) = [] := rfl
@[simp] theorem heldTx_rxc2 (b : Byte) : heldTx (some (.rxc2 b)) = [] := rfl
@[simp] theorem heldRx_none : heldRx none = [] := rfl
@[simp] theorem heldRx_txc1 : heldRx (some .txc1) = [] := rfl
@[simp] theorem heldRx_udre1 : heldRx (some .udre1) = [] := rfl
@[simp] theorem heldRx_txc2 (r : Option Byte) : heldRx (some (.txc2 r)) = [] := rfl
@[simp] theorem heldRx_udre2 (r : Option Byte) : heldRx (some (.udre2 r)) = [] := rfl
@[simp] theorem heldRx_rxc1 : heldRx (some .rxc1) = [] := rfl
@[simp] theorem heldRx_rxc2 (b : Byte) : heldRx (some (.rxc2 b)) = [b] := rfl

/-! ## The byte streams (R191, R216) -/

/-- Settles O32: a pop moves the front of the queue into the handler and a write moves the handler's byte into the log;
only a push adds a byte, and no other move names the three. -/
theorem transmitStreamConserved : Obligations.TransmitStreamConserved := by
  intro i s t h no_reset
  have m := exec_move h
  cases m
  case reset => exact absurd rfl no_reset
  case push b r main free room =>
    exact .inr ⟨b, rfl, free, room, by simp [State.txStream]⟩
  all_goals left
  case popTxc who at_p1 | popUdre who at_p1 =>
    simp [State.txStream, at_p1, tryPop_conserves]
  case pumpEmpty at_p2 => simp [State.txStream, at_p2.heldTx_eq]
  case writeOverrun b _ _ at_p2 | writeIdle b _ _ _ at_p2 | writeBehind b _ _ _ _ at_p2 =>
    simp [State.txStream, at_p2.heldTx_eq]
  case enterRxc en | enterUdre en | enterTxc en => simp [State.txStream, isr_of_entryEnabled en]
  case rxRead at_x1 _ => simp [State.txStream, at_x1]
  case rxPush at_x2 _ | rxDrop at_x2 _ => simp [State.txStream, at_x2]
  case configure | initStep | disable => simp [State.txStream]
  all_goals rfl

/-- The record of a completed frame carries the frame's byte, unless it is garbled. -/
theorem carries_lineRecord (fr : TxFrame) : carries (lineRecord fr) fr.byte := by
  unfold lineRecord
  split
  · trivial
  · exact rfl

/-- A frame that completes joins the bytes sent, in the log and in the bytes written alike. -/
theorem lineFollows_append {line : List LineFrame} {sent : List Byte} (fr : TxFrame)
    (h : List.Forall₂ carries line sent) : List.Forall₂ carries (line ++ [lineRecord fr]) (sent ++ [fr.byte]) :=
  List.rel_append h (.cons (carries_lineRecord fr) .nil)

/-- Settles O33: a write adds its byte at the back of the hardware, an end of frame takes one from its front; a write on a
full holding register is no step without a fault. -/
theorem lineFollowsWrites : Obligations.LineFollowsWrites := by
  intro i s t who ⟨sent, written, line⟩ h good
  have m := exec_move h
  cases m
  case configure | initStart | initStep | disable => simp [agentOf] at who
  case reset => exact ⟨[], rfl, .nil⟩
  case writeOverrun => simp [State.FaultFree] at good
  case writeIdle b on room idle at_p2 =>
    refine ⟨sent, ?_, line⟩
    simp_all [State.inHardware]
  case writeBehind b fr on room busy at_p2 =>
    refine ⟨sent, ?_, line⟩
    simp_all [State.inHardware]
  case txDoneNext fr b busy waits =>
    refine ⟨sent ++ [fr.byte], ?_, lineFollows_append fr line⟩
    simp_all [State.inHardware]
  case txDoneIdle fr busy none_waits =>
    refine ⟨sent ++ [fr.byte], ?_, lineFollows_append fr line⟩
    simp_all [State.inHardware]
  all_goals exact ⟨sent, written, line⟩

/-- Settles O36: an overrun needs three bytes, one in the handler and one in each register; a byte leaves the path when
its frame completes, is lost or is written on a full register, and only a push adds one. -/
theorem twoBytesNeverOverrun : Obligations.TwoBytesNeverOverrun := by
  intro i s t h
  have m := exec_move h
  refine ⟨fun inv few => ?_, ?_⟩
  · cases m
    case writeOverrun b on full at_p2 =>
      have busy := inv.waits_behind full
      obtain ⟨x, hx⟩ := Option.ne_none_iff_exists'.mp full
      obtain ⟨fr, hfr⟩ := Option.ne_none_iff_exists'.mp busy
      simp [State.inFlight, State.inHardware, hx, hfr, at_p2.heldTx_eq] at few
      omega
    case configure | initStep | disable => simp
    all_goals rfl
  · cases m
    case push b r main free room =>
      refine .inr ⟨b, rfl, free, ?_⟩
      simp [State.inFlight, State.inHardware]
      omega
    all_goals left
    case configure k cfg _ _ _ | initStep k cfg _ _ _ =>
      have := (confEffect_inHardware k cfg s).length_le
      simpa [State.inFlight, State.inHardware] using this
    case disable =>
      have := (writeCtrlB_inHardware 0#8 s).length_le
      simpa [State.inFlight, State.inHardware] using this
    case reset => simp [State.inFlight, State.inHardware, resetBlock]
    case popTxc who at_p1 | popUdre who at_p1 =>
      have := congrArg List.length (tryPop_conserves s.txq)
      simp [State.inFlight, State.inHardware, at_p1] at this ⊢
      omega
    case pumpEmpty at_p2 => simp [State.inFlight, State.inHardware, at_p2.heldTx_eq]
    case writeOverrun b _ _ at_p2 | writeIdle b _ _ _ at_p2 | writeBehind b _ _ _ _ at_p2 =>
      simp_all [State.inFlight, State.inHardware, at_p2.heldTx_eq]
    case txDoneNext | txDoneIdle => simp_all [State.inFlight, State.inHardware]
    case enterRxc en | enterUdre en | enterTxc en =>
      simp [State.inFlight, State.inHardware, isr_of_entryEnabled en]
    case rxRead at_x1 _ => simp [State.inFlight, State.inHardware, at_x1]
    case rxPush at_x2 _ | rxDrop at_x2 _ => simp [State.inFlight, State.inHardware, at_x2]
    all_goals exact Nat.le_refl _

/-- A configuration step keeps the input register, or turns the receiver off and empties it (R172). -/
theorem confEffect_rxb (k : ConfStep) (cfg : Cfg) (s : State) :
    (confEffect k cfg s).rxb = s.rxb ∨
      (s.rxen = true ∧ (confEffect k cfg s).rxen = false ∧ (confEffect k cfg s).rxb = none) := by
  cases k
  case c1 | c3 | c6 => exact writeCtrlB_rxb _ s
  all_goals simp [confEffect]

/-- A state that differs in the input register as R172 allows, and not in the queue or the handler, has kept its received
stream or lost the register's byte. -/
theorem rxStream_of_rxb {s t : State} (queue : t.rxq = s.rxq) (handler : t.isr = s.isr)
    (register : t.rxb = s.rxb ∨ (s.rxen = true ∧ t.rxen = false ∧ t.rxb = none)) :
    t.rxStream = s.rxStream ∨
      (s.rxen = true ∧ t.rxen = false ∧ t.rxb = none ∧ t.rxStream = s.rxq ++ heldRx s.isr) := by
  rcases register with kept | ⟨on, off, lost⟩
  · exact .inl (by rw [State.rxStream, queue, handler, kept, State.rxStream])
  · exact .inr ⟨on, off, lost, by simp [State.rxStream, queue, handler, lost]⟩

/-- Settles O46: the byte goes from the input register to the handler to the queue to the host, one move each; an arrival
adds at the back, and the two losses are the drop on a full queue and the disable. -/
theorem receiveStreamConserved : Obligations.ReceiveStreamConserved := by
  intro i s t h no_reset
  have m := exec_move h
  cases m
  case reset => exact absurd rfl no_reset
  case configure k cfg _ _ _ | initStep k cfg _ _ _ =>
    have := rxStream_of_rxb (confEffect_rxq k cfg s) (confEffect_isr k cfg s) (confEffect_rxb k cfg s)
    exact this.imp id fun lost => .inr (.inr (.inr lost))
  case disable =>
    have := rxStream_of_rxb (writeCtrlB_rxq 0#8 s) (writeCtrlB_isr 0#8 s) (writeCtrlB_rxb 0#8 s)
    exact this.imp id fun lost => .inr (.inr (.inr lost))
  case rxTake b on room => exact .inr (.inl ⟨b, rfl, room, by simp [State.rxStream, room]⟩)
  case dequeue b rest main free front =>
    exact .inr (.inr (.inl ⟨b, rfl, rfl, by simp [State.rxStream, front]⟩))
  case rxDrop b at_x2 full =>
    exact .inr (.inr (.inr (.inl ⟨b, at_x2, full, rfl, by simp [State.rxStream, at_x2], by simp [State.rxStream]⟩)))
  all_goals left
  case rxRead at_x1 there => simp [State.rxStream, at_x1, there]
  case rxPush at_x2 _ => simp [State.rxStream, at_x2]
  case popTxc who at_p1 | popUdre who at_p1 => simp [State.rxStream, at_p1]
  case pumpEmpty at_p2 => simp [State.rxStream, at_p2.heldRx_eq]
  case writeOverrun b _ _ at_p2 | writeIdle b _ _ _ at_p2 | writeBehind b _ _ _ _ at_p2 =>
    simp [State.rxStream, at_p2.heldRx_eq]
  case enterRxc en | enterUdre en | enterTxc en => simp [State.rxStream, isr_of_entryEnabled en]
  all_goals rfl

/-! ## The hook, the log of writes, the two requests -/

/-- R161 to R166: of the configuration steps only C7 sets the hook. -/
theorem confEffect_hook (k : ConfStep) (cfg : Cfg) (s : State) :
    (confEffect k cfg s).hook = (s.hook || decide (k = .c7)) := by
  cases k <;> simp [confEffect]

/-- A configuration step that changes the hook is C7. -/
theorem confEffect_hook_ne {k : ConfStep} {cfg : Cfg} {s : State} (h : (confEffect k cfg s).hook ≠ s.hook) :
    (confEffect k cfg s).hook = true ∧ k = .c7 := by
  rw [confEffect_hook] at h ⊢
  cases k <;> simp_all

/-- Settles O24: the moves that write the hook are `RESET` and step C7. -/
theorem hookSetByC7ClearedByReset : Obligations.HookSetByC7ClearedByReset := by
  intro i s t h changed
  have m := exec_move h
  cases m
  case reset => exact .inl ⟨rfl, rfl⟩
  case configure k cfg _ main at_k =>
    obtain ⟨set, rfl⟩ := confEffect_hook_ne changed
    exact .inr ⟨set, cfg, .inr (at_k.resolve_left (by simp))⟩
  case initStep k cfg _ main at_k =>
    obtain ⟨set, rfl⟩ := confEffect_hook_ne changed
    exact .inr ⟨set, cfg, .inl at_k⟩
  case disable => exact absurd (writeCtrlB_hook 0#8 s) changed
  all_goals exact absurd rfl changed

/-- Settles O34: the moves that write the log are those of step P2, which return from the handler. -/
theorem atMostOneByteWrittenPerStep : Obligations.AtMostOneByteWrittenPerStep := by
  intro i s t h no_reset
  have m := exec_move h
  cases m
  case reset => exact absurd rfl no_reset
  case writeOverrun b _ _ at_p2 | writeIdle b _ _ _ at_p2 | writeBehind b _ _ _ _ at_p2 =>
    exact .inr ⟨b, at_p2.isr_eq, rfl, rfl⟩
  case configure k cfg _ _ _ | initStep k cfg _ _ _ => exact .inl (confEffect_txWritten k cfg s)
  case disable => exact .inl (writeCtrlB_txWritten 0#8 s)
  all_goals exact .inl rfl

/-- Settles O39: `txc` is written by the end of a frame on an idle line, the kick, the entry of `ISR_TXC` and `RESET`. -/
theorem txcSetAndClearedOnlyAsListed : Obligations.TxcSetAndClearedOnlyAsListed := by
  intro i s t h
  have m := exec_move h
  cases m
  case reset => exact ⟨fun _ set => absurd set Bool.false_ne_true, fun _ _ => .inl rfl⟩
  case txDoneIdle fr busy none_waits =>
    exact ⟨fun _ _ => .inl ⟨rfl, none_waits, rfl⟩, fun _ cleared => absurd cleared Bool.false_ne_true.symm⟩
  case kick r who main pushed =>
    exact ⟨fun _ _ => .inr ⟨pushed, who⟩, fun _ cleared => absurd cleared Bool.false_ne_true.symm⟩
  case enterTxc en =>
    exact ⟨fun _ set => absurd set Bool.false_ne_true, fun _ _ => .inr ⟨rfl, isr_of_entryEnabled en, rfl⟩⟩
  all_goals refine ⟨fun low high => ?_, fun high low => ?_⟩ <;> simp_all

/-- The format and rate registers after the losses of a disable are those before. -/
theorem disableLoss_fmt (x y : Bool) (s : State) : (disableLoss x y s).fmt = s.fmt := by simp [State.fmt]

theorem garble_fmt (c : Bool) (s : State) : (garble c s).fmt = s.fmt := by simp [State.fmt]

/-- R33: the request, raised, tells of a byte that has just been absorbed under the format as it stands. -/
def JustAbsorbed (s t : State) : Prop :=
  t.txb = none ∧ ∃ b, t.tsr = some { byte := b, fmt := t.fmt, garbled := false } ∧ s.txb = some b

theorem writeCtrlB_raises_udreReq {v : Byte} {s : State} (low : s.udreReq = false)
    (high : (writeCtrlB v s).udreReq = true) : JustAbsorbed s (writeCtrlB v s) := by
  obtain ⟨empty, b, frame, waited⟩ := disableLoss_raises_udreReq _ _ _ (by simpa using low) high
  refine ⟨empty, b, ?_, by simpa using waited⟩
  rw [writeCtrlB, disableLoss_fmt]
  exact frame

theorem confEffect_raises_udreReq {k : ConfStep} {cfg : Cfg} {s : State} (low : s.udreReq = false)
    (high : (confEffect k cfg s).udreReq = true) : JustAbsorbed s (confEffect k cfg s) := by
  cases k
  case c1 | c3 | c6 => exact writeCtrlB_raises_udreReq low high
  all_goals simp [confEffect, low] at high

/-- Settles O40: an absorption, by whatever move, is under the current format; a write, the entry of `ISR_UDRE` and `RESET`
lower the request. -/
theorem udreRequestSetAndClearedOnlyAsListed : Obligations.UdreRequestSetAndClearedOnlyAsListed := by
  intro i s t h
  have m := exec_move h
  cases m
  case reset => exact ⟨fun _ set => absurd set Bool.false_ne_true, fun _ _ => .inl rfl⟩
  case configure k cfg _ _ _ | initStep k cfg _ _ _ =>
    refine ⟨fun low high => ?_, fun high low => ?_⟩
    · obtain ⟨empty, b, frame, waited⟩ := confEffect_raises_udreReq low high
      exact ⟨empty, b, frame, .inl waited⟩
    · exact absurd (confEffect_keeps_udreReq k cfg s high) (Bool.eq_false_iff.mp low)
  case disable =>
    refine ⟨fun low high => ?_, fun high low => ?_⟩
    · obtain ⟨empty, b, frame, waited⟩ := writeCtrlB_raises_udreReq low high
      exact ⟨empty, b, frame, .inl waited⟩
    · exact absurd (disableLoss_keeps_udreReq _ _ _ (by simpa using high)) (Bool.eq_false_iff.mp low)
  case enterUdre en =>
    exact ⟨fun _ set => absurd set Bool.false_ne_true, fun _ _ => .inr (.inl ⟨rfl, isr_of_entryEnabled en, rfl⟩)⟩
  case writeOverrun b _ _ at_p2 | writeBehind b _ _ _ _ at_p2 =>
    exact ⟨fun _ set => absurd set Bool.false_ne_true, fun _ _ => .inr (.inr ⟨b, rfl⟩)⟩
  case writeIdle b on room idle at_p2 =>
    exact ⟨fun _ _ => ⟨room, b, rfl, .inr at_p2.isr_eq⟩, fun _ cleared => absurd cleared Bool.false_ne_true.symm⟩
  case txDoneNext fr b busy waits =>
    exact ⟨fun _ _ => ⟨rfl, b, rfl, .inl waits⟩, fun _ cleared => absurd cleared Bool.false_ne_true.symm⟩
  all_goals exact ⟨fun low high => absurd (low.symm.trans high) Bool.false_ne_true,
    fun high low => absurd (low.symm.trans high) Bool.false_ne_true⟩

/-! ## Handlers, faults, queues -/

/-- Settles O47: the moves that enter a handler carry its request and its enable bit. -/
theorem dispatchNeedsRequestAndEnable : Obligations.DispatchNeedsRequestAndEnable := by
  intro i s t h main entered
  have m := exec_move h
  cases m
  case enterRxc en =>
    exact ⟨.rxc, rfl, request_of_entryEnabled en, enable_of_entryEnabled en, .inl (enable_of_entryEnabled en)⟩
  case enterUdre en =>
    exact ⟨.udre, rfl, request_of_entryEnabled en, enable_of_entryEnabled en, .inr (.inl (enable_of_entryEnabled en))⟩
  case enterTxc en =>
    exact ⟨.txc, rfl, request_of_entryEnabled en, enable_of_entryEnabled en, .inr (.inr (enable_of_entryEnabled en))⟩
  case popTxc who at_p1 | popUdre who at_p1 => simp [main] at at_p1
  case rxRead at_x1 _ => simp [main] at at_x1
  case pumpEmpty | writeOverrun | writeIdle | writeBehind | rxPush | rxDrop | reset => exact absurd rfl entered
  case configure k cfg _ _ _ | initStep k cfg _ _ _ => exact absurd ((confEffect_isr k cfg s).trans main) entered
  case disable => exact absurd ((writeCtrlB_isr 0#8 s).trans main) entered
  all_goals exact absurd main entered

/-- Settles O48: in interrupt context no host move and no entry happens, and the handlers' own moves lead where listed. -/
theorem noNestingAndTheHostWaits : Obligations.NoNestingAndTheHostWaits := by
  intro i s t p h running no_reset
  have m := exec_move h
  cases m
  case reset => exact absurd rfl no_reset
  case configure main _ | initStart main _ _ | initStep main _ | disable main _ | push main _ _ |
      kick main _ | dequeue main _ _ =>
    exact absurd (main.symm.trans running) (Option.some_ne_none p).symm
  case enterRxc en | enterUdre en | enterTxc en =>
    exact absurd ((isr_of_entryEnabled en).symm.trans running) (Option.some_ne_none p).symm
  case popTxc who at_p1 =>
    obtain rfl := Option.some.inj (running.symm.trans at_p1)
    exact ⟨rfl, rfl, .inr (.inl ⟨rfl, _, rfl⟩)⟩
  case popUdre who at_p1 =>
    obtain rfl := Option.some.inj (running.symm.trans at_p1)
    exact ⟨rfl, rfl, .inr (.inr (.inl ⟨rfl, _, rfl⟩))⟩
  case rxRead at_x1 _ =>
    obtain rfl := Option.some.inj (running.symm.trans at_x1)
    exact ⟨rfl, rfl, .inr (.inr (.inr (.inl ⟨rfl, _, rfl⟩)))⟩
  case pumpEmpty at_p2 | writeOverrun _ _ _ at_p2 | writeIdle _ _ _ _ at_p2 | writeBehind _ _ _ _ _ at_p2 =>
    obtain e | e := at_p2.isr_eq <;> obtain rfl := Option.some.inj (running.symm.trans e) <;>
      exact ⟨rfl, rfl, .inr (.inr (.inr (.inr ⟨rfl, by simp⟩)))⟩
  case rxPush b at_x2 _ | rxDrop b at_x2 _ =>
    obtain rfl := Option.some.inj (running.symm.trans at_x2)
    exact ⟨rfl, rfl, .inr (.inr (.inr (.inr ⟨rfl, by simp⟩)))⟩
  all_goals exact ⟨rfl, rfl, .inl running⟩

/-- Settles O55: an overrun is recorded by a write or an arrival on a full register, and no move removes a fault. -/
theorem faultsAreStickyAndHaveTheirCauses : Obligations.FaultsAreStickyAndHaveTheirCauses := by
  intro i s t h
  have m := exec_move h
  cases m
  case writeOverrun b on full at_p2 =>
    exact ⟨fun _ => rfl, id, fun _ _ => ⟨full, by simp [at_p2.heldTx_eq]⟩, fun low high => by simp_all⟩
  case rxOverrun b on full =>
    exact ⟨id, fun _ => rfl, fun low high => by simp_all, fun _ _ => ⟨full, b, rfl⟩⟩
  all_goals refine ⟨?_, ?_, ?_, ?_⟩ <;> simp_all [resetBlock]

/-- A pop takes the oldest byte, or leaves an empty queue as it is (R74). -/
theorem tryPop_snd (q : List Byte) : (tryPop q).2 = q ∨ ∃ b, q = b :: (tryPop q).2 := by
  cases q with
  | nil => exact .inl rfl
  | cons b rest => exact .inr ⟨b, rfl⟩

/-- Settles O57: of all moves only the push, the two pops, `ISR_RXC`'s push and the dequeue name a queue. -/
theorem queuesHaveOneProducerAndOneConsumer : Obligations.QueuesHaveOneProducerAndOneConsumer := by
  intro i s t h
  have m := exec_move h
  cases m
  case push b _ _ _ _ => exact ⟨.inr (.inl ⟨b, rfl, rfl⟩), .inl rfl⟩
  case popTxc who at_p1 =>
    refine ⟨(tryPop_snd s.txq).imp id fun ⟨b, front⟩ => .inr ⟨b, ?_, .inl at_p1, front⟩, .inl rfl⟩
    exact who.imp id .inl
  case popUdre who at_p1 =>
    refine ⟨(tryPop_snd s.txq).imp id fun ⟨b, front⟩ => .inr ⟨b, ?_, .inr at_p1, front⟩, .inl rfl⟩
    exact who.imp id .inr
  case rxPush b at_x2 _ => exact ⟨.inl rfl, .inr (.inl ⟨b, rfl, at_x2, rfl⟩)⟩
  case dequeue b rest _ _ front => exact ⟨.inl rfl, .inr (.inr ⟨b, rfl, front⟩)⟩
  case configure k cfg _ _ _ | initStep k cfg _ _ _ => exact ⟨.inl (confEffect_txq k cfg s), .inl (confEffect_rxq k cfg s)⟩
  case disable => exact ⟨.inl (writeCtrlB_txq 0#8 s), .inl (writeCtrlB_rxq 0#8 s)⟩
  all_goals exact ⟨.inl rfl, .inl rfl⟩

end Machine
end Sys2Proof
end

section
/-! PROOFS. The invariant (R43 and what keeps it): the enables a register write leaves, each move's own lemma where it
touches more than one clause, and what follows from the invariant: no operation stops, `ISR_UDRE` finds room. -/

namespace Sys2Proof
namespace Machine

/-! ## The enables of `CTRLB` (R22, R43 (iii)) -/

/-- The enable bits of a value of `CTRLB` stand or fall in their groups, and bits 1:0 are 0. -/
def EnablesGrouped (v : Byte) : Prop :=
  (v.getLsbD 3 = v.getLsbD 6 ∧ v.getLsbD 6 = v.getLsbD 5) ∧ v.getLsbD 4 = v.getLsbD 7 ∧ v &&& 0x03#8 = 0#8

theorem State.Inv.enablesGrouped {s : State} (inv : s.Inv) : EnablesGrouped s.ctrlB :=
  ⟨inv.tx_enables, inv.rx_enables, inv.reserved_bits⟩

theorem zero_enablesGrouped : EnablesGrouped 0x00#8 := by simp [EnablesGrouped]

theorem imgB0Of_enablesGrouped (z : Bool) : EnablesGrouped (imgB0Of z) := by
  cases z <;> simp [EnablesGrouped, imgB0Of_eq]

theorem imgB1Of_enablesGrouped (r t z : Bool) : EnablesGrouped (imgB1Of r t z) := by
  obtain ⟨b7, b6, b5, b4, b3, -, reserved⟩ := imgB1Of_bits r t z
  exact ⟨⟨b3.trans b6.symm, b6.trans b5.symm⟩, b4.trans b7.symm, reserved⟩

/-- What `CTRLB` holds after a configuration step. -/
theorem confEffect_ctrlB (k : ConfStep) (cfg : Cfg) (s : State) :
    (confEffect k cfg s).ctrlB =
      match k with
      | .c1 => 0x00#8
      | .c3 => imgB0Of cfg.sz2
      | .c6 => imgB1Of cfg.enableRx cfg.enableTx cfg.sz2
      | _ => s.ctrlB := by
  cases k <;> simp [confEffect, imgB0Of_and, imgB1Of_and]

theorem confEffect_enablesGrouped (k : ConfStep) (cfg : Cfg) {s : State} (h : EnablesGrouped s.ctrlB) :
    EnablesGrouped (confEffect k cfg s).ctrlB := by
  rw [confEffect_ctrlB]
  cases k
  case c1 => exact zero_enablesGrouped
  case c3 => exact imgB0Of_enablesGrouped _
  case c6 => exact imgB1Of_enablesGrouped _ _ _
  all_goals exact h

/-- R161, R174: a step that ends between C1 and C6 leaves every enable 0. -/
theorem confEffect_window_off {k k' : ConfStep} (cfg : Cfg) {s : State} (next : nextConfStep k = some k')
    (inside : betweenC1AndC6 k' = true) (off : betweenC1AndC6 k = true → s.ctrlB &&& 0xF8#8 = 0#8) :
    (confEffect k cfg s).ctrlB &&& 0xF8#8 = 0#8 := by
  rw [confEffect_ctrlB]
  cases k
  case c1 => exact BitVec.zero_and
  case c3 =>
    change imgB0Of cfg.sz2 &&& 0xF8#8 = 0#8
    cases cfg.sz2 <;> decide
  case c6 => cases next; cases inside
  case c7 => cases next
  all_goals exact off rfl

/-- With every enable 0 no source is enabled. -/
theorem enable_of_off {s : State} (off : s.ctrlB &&& 0xF8#8 = 0#8) (src : Source) : s.enable src = false := by
  have bits (k : Nat) (hk : (0xF8#8 : Byte).getLsbD k = true) : s.ctrlB.getLsbD k = false := by
    have := congrArg (BitVec.getLsbD · k) off
    simpa only [BitVec.getLsbD_and, hk, Bool.and_true, BitVec.getLsbD_zero] using this
  cases src
  · exact bits 7 (by decide)
  · exact bits 5 (by decide)
  · exact bits 6 (by decide)

/-! ## The moves keep the invariant -/

section
variable {s : State} (inv : s.Inv)
include inv

/-- No handler is entered between C1 and C6. -/
theorem State.Inv.no_window_of_entry {src : Source} (en : s.entryEnabled src = true) :
    hostDisabledWindow s.host = false := by
  by_contra window
  have off := (inv.window_off (Bool.not_eq_false _ |>.mp window)).2
  exact Bool.false_ne_true ((enable_of_off off src).symm.trans (enable_of_entryEnabled en))

/-- No handler runs between C1 and C6. -/
theorem State.Inv.no_window_of_running {p : IsrProgress} (running : s.isr = some p) :
    hostDisabledWindow s.host = false := by
  by_contra window
  have main := (inv.window_off (Bool.not_eq_false _ |>.mp window)).1
  exact Option.some_ne_none p (running.symm.trans main)

theorem State.Inv.latchFacts : LatchFacts s := ⟨inv.udre_request, inv.waits_behind⟩

/-- R160: step `k` of a configuration, of `INIT` or alone, with the host's next position and a phase that fits it. -/
theorem State.Inv.confEffect {k : ConfStep} {cfg : Cfg} {host : Option HostProgress} {phase : Phase} {r : OpResult}
    (main : s.isr = none) (window : hostDisabledWindow host = true → ∃ k', nextConfStep k = some k' ∧
      betweenC1AndC6 k' = true ∧ (betweenC1AndC6 k = true → hostDisabledWindow s.host = true))
    (configuring : phase = .configuring ↔ hostInInit host = true)
    (operational : phase = .operational → k = .c7 ∨ s.phase = .operational) (divisor : hostDivisorOk host = true) :
    (State.ret { confEffect k cfg s with host := host, phase := phase } r).Inv := by
  obtain ⟨room, waits⟩ := confEffect_latchFacts k cfg s inv.latchFacts
  obtain ⟨tx, rx, reserved⟩ := confEffect_enablesGrouped k cfg inv.enablesGrouped
  have main' : (Machine.confEffect k cfg s).isr = none := (confEffect_isr k cfg s).trans main
  refine
    { udre_request := room, waits_behind := waits, tx_enables := tx, rx_enables := rx, reserved_bits := reserved
      txq_fits := by simpa using inv.txq_fits, rxq_fits := by simpa using inv.rxq_fits
      tx_handler_on := fun h => ?_, rx_handler_byte := fun h => ?_, udre_handler_room := fun h => ?_
      window_off := fun h => ⟨main', ?_⟩, configuring := configuring
      operational_hook := fun h => ?_, divisor_ok := divisor }
  · simp [main, inTxHandler] at h
  · simp [main] at h
  · simp [main, inUdreHandler] at h
  · obtain ⟨k', next, inside, before⟩ := window h
    exact confEffect_window_off cfg next inside fun in_window => (inv.window_off (before in_window)).2
  · change (Machine.confEffect k cfg s).hook = true
    rw [confEffect_hook]
    rcases operational h with rfl | before
    · simp
    · simp [inv.operational_hook before]

end

/-- A host that is in no `INIT` leaves the phase clause as it is when it moves to a position in no `INIT` (R168). -/
theorem State.Inv.configuring_of_outside {s : State} (inv : s.Inv) {host : Option HostProgress}
    (before : hostInInit s.host = false) (after : hostInInit host = false) :
    s.phase = .configuring ↔ hostInInit host = true := by
  rw [inv.configuring, before, after]

/-- The host's positions in a `CONFIGURE` called alone. -/
theorem Move.configure_keeps_inv {s : State} {k : ConfStep} {cfg : Cfg} {r : OpResult} (inv : s.Inv)
    (main : s.isr = none) (at_k : (s.host = none ∧ k = .c1) ∨ s.host = some (.configure k cfg)) :
    (State.ret { confEffect k cfg s with host := (nextConfStep k).map fun k' => .configure k' cfg } r).Inv := by
  have outside : hostInInit s.host = false := by rcases at_k with ⟨free, -⟩ | at_k <;> simp [*, hostInInit]
  refine inv.confEffect main (fun window => ?_) ?_ ?_ ?_
  · rcases at_k with ⟨-, rfl⟩ | at_k
    · exact ⟨.c2, rfl, rfl, nofun⟩
    · rw [at_k]
      cases k
      case c7 => cases window
      all_goals exact ⟨_, rfl, window, id⟩
  · rw [confEffect_phase]
    exact inv.configuring_of_outside outside (by cases k <;> rfl)
  · exact fun before => .inr ((confEffect_phase k cfg s).symm.trans before)
  · cases k <;> rfl

/-- The host's positions in an `INIT`; step C7 leaves it for an operational block. -/
theorem Move.initStep_keeps_inv {s : State} {k : ConfStep} {cfg : Cfg} {r : OpResult} (inv : s.Inv)
    (main : s.isr = none) (at_k : s.host = some (.init k cfg)) :
    (State.ret { confEffect k cfg s with
      host := (nextConfStep k).map fun k' => .init k' cfg
      phase := if k = .c7 then .operational else (confEffect k cfg s).phase } r).Inv := by
  have inside : s.phase = .configuring := inv.configuring.mpr (by rw [at_k]; rfl)
  have divisor : hostDivisorOk (some (.init k cfg)) = true := at_k ▸ inv.divisor_ok
  refine inv.confEffect main (fun window => ?_) ?_ ?_ ?_
  · rw [at_k]
    cases k
    case c7 => cases window
    all_goals exact ⟨_, rfl, window, id⟩
  · cases k <;> simp [nextConfStep, hostInInit, inside]
  · cases k <;> simp [inside]
  · cases k
    case c7 => rfl
    all_goals exact divisor

/-- `HOST_DISABLE` is the write of step C1, with the host free before and after (R171). -/
theorem Move.disable_keeps_inv {s : State} {r : OpResult} (inv : s.Inv) (main : s.isr = none) (free : s.host = none) :
    ((writeCtrlB 0x00#8 s).ret r).Inv := by
  have outside : hostInInit s.host = false := by rw [free]; rfl
  have free' : (writeCtrlB 0x00#8 s).host = none := (writeCtrlB_host _ s).trans free
  refine inv.confEffect (k := .c1) (cfg := cfgOf 0#32 false 0#16 false false) (host := (writeCtrlB 0x00#8 s).host)
    (phase := (writeCtrlB 0x00#8 s).phase) main (fun window => ?_) ?_ ?_ ?_
  · rw [free'] at window
    cases window
  · rw [writeCtrlB_phase, free']
    exact inv.configuring_of_outside outside rfl
  · exact fun before => .inr ((writeCtrlB_phase 0x00#8 s).symm.trans before)
  · rw [free']
    rfl

/-- R129 (f): `INIT` starts with a divisor `CONFIGURE` is specified for. -/
theorem divisorInRange_of_selectBaud {clock baud : Word} {d : Nat} {ds : Bool}
    (sel : selectBaud clock.toNat baud.toNat = some (d, ds)) : divisorInRange (BitVec.ofNat 32 d) = true := by
  obtain ⟨low, high⟩ := selectBaud_divisor_range clock.isLt sel
  simp only [divisorInRange, BitVec.toNat_ofNat, Bool.and_eq_true, decide_eq_true_eq]
  omega

theorem tryPop_length_le (q : List Byte) : (tryPop q).2.length ≤ q.length := by
  cases q <;> simp

/-- The block stays in good order whatever move is made (R43). -/
theorem Move.keeps_inv {i : Instr} {s t : State} (m : Move i s t) (inv : s.Inv) : t.Inv := by
  cases m
  case reset =>
    obtain ⟨tx, rx, reserved⟩ := zero_enablesGrouped
    exact
      { udre_request := nofun, waits_behind := fun h => absurd rfl h, tx_enables := tx, rx_enables := rx
        reserved_bits := reserved, txq_fits := inv.txq_fits, rxq_fits := inv.rxq_fits, tx_handler_on := nofun
        rx_handler_byte := nofun, udre_handler_room := nofun, window_off := nofun, configuring := ⟨nofun, nofun⟩
        operational_hook := nofun, divisor_ok := rfl }
  case configure main at_k => exact Move.configure_keeps_inv inv main at_k
  case initStart div main free sel =>
    exact { inv with
      window_off := nofun
      configuring := ⟨fun _ => rfl, fun _ => rfl⟩
      operational_hook := nofun
      divisor_ok := by simp only [ret_host, hostDivisorOk, div]; exact divisorInRange_of_selectBaud sel }
  case initStep main at_k => exact Move.initStep_keeps_inv inv main at_k
  case disable main free =>
    exact Move.disable_keeps_inv inv main free
  case push main free room =>
    have outside : hostInInit s.host = false := by rw [free]; rfl
    exact { inv with
      txq_fits := by simpa using room
      window_off := fun h => by split at h <;> cases h
      configuring := inv.configuring_of_outside outside (by split <;> rfl)
      divisor_ok := by simp only [ret_host]; split <;> rfl }
  case kick main pushed =>
    have outside : hostInInit s.host = false := by rw [pushed]; rfl
    exact { inv with
      window_off := nofun
      configuring := inv.configuring_of_outside outside rfl
      divisor_ok := rfl }
  case dequeue b rest main free front =>
    have fits := inv.rxq_fits
    rw [front, List.length_cons] at fits
    exact { inv with rxq_fits := Nat.le_of_succ_le fits }
  case enterRxc en =>
    exact { inv with
      tx_handler_on := nofun
      rx_handler_byte := fun _ => Option.isSome_iff_ne_none.mp (request_of_entryEnabled en)
      udre_handler_room := nofun
      window_off := fun h => absurd h (Bool.eq_false_iff.mp (inv.no_window_of_entry en)) }
  case enterUdre en =>
    have on : s.txen = true := inv.tx_enables.1.trans (inv.tx_enables.2.trans (enable_of_entryEnabled en))
    exact { inv with
      udre_request := nofun
      tx_handler_on := fun _ => on
      rx_handler_byte := nofun
      udre_handler_room := fun _ => inv.udre_request (request_of_entryEnabled en)
      window_off := fun h => absurd h (Bool.eq_false_iff.mp (inv.no_window_of_entry en)) }
  case enterTxc en =>
    exact { inv with
      tx_handler_on := fun _ => inv.tx_enables.1.trans (enable_of_entryEnabled en)
      rx_handler_byte := nofun
      udre_handler_room := nofun
      window_off := fun h => absurd h (Bool.eq_false_iff.mp (inv.no_window_of_entry en)) }
  case popTxc who at_p1 =>
    exact { inv with
      txq_fits := (tryPop_length_le s.txq).trans inv.txq_fits
      tx_handler_on := fun _ => inv.tx_handler_on (by rw [at_p1]; rfl)
      rx_handler_byte := nofun
      udre_handler_room := nofun
      window_off := fun h => absurd h (Bool.eq_false_iff.mp (inv.no_window_of_running at_p1)) }
  case popUdre who at_p1 =>
    exact { inv with
      txq_fits := (tryPop_length_le s.txq).trans inv.txq_fits
      tx_handler_on := fun _ => inv.tx_handler_on (by rw [at_p1]; rfl)
      rx_handler_byte := nofun
      udre_handler_room := fun _ => inv.udre_handler_room (by rw [at_p1]; rfl)
      window_off := fun h => absurd h (Bool.eq_false_iff.mp (inv.no_window_of_running at_p1)) }
  case rxRead at_x1 there =>
    exact { inv with
      tx_handler_on := nofun
      rx_handler_byte := nofun
      udre_handler_room := nofun
      window_off := fun h => absurd h (Bool.eq_false_iff.mp (inv.no_window_of_running at_x1)) }
  case pumpEmpty | rxDrop =>
    exact { inv with
      tx_handler_on := nofun
      rx_handler_byte := nofun
      udre_handler_room := nofun
      window_off := fun h => ⟨rfl, (inv.window_off h).2⟩ }
  case writeOverrun =>
    exact { inv with
      udre_request := nofun
      tx_handler_on := nofun
      rx_handler_byte := nofun
      udre_handler_room := nofun
      window_off := fun h => ⟨rfl, (inv.window_off h).2⟩ }
  case writeIdle on room idle at_p2 =>
    exact { inv with
      udre_request := fun _ => room
      waits_behind := fun h => absurd room h
      tx_handler_on := nofun
      rx_handler_byte := nofun
      udre_handler_room := nofun
      window_off := fun h => ⟨rfl, (inv.window_off h).2⟩ }
  case writeBehind fr on room busy at_p2 =>
    exact { inv with
      udre_request := nofun
      waits_behind := fun _ => busy ▸ Option.some_ne_none fr
      tx_handler_on := nofun
      rx_handler_byte := nofun
      udre_handler_room := nofun
      window_off := fun h => ⟨rfl, (inv.window_off h).2⟩ }
  case rxPush at_x2 room =>
    exact { inv with
      rxq_fits := by simpa using room
      tx_handler_on := nofun
      rx_handler_byte := nofun
      udre_handler_room := nofun
      window_off := fun h => ⟨rfl, (inv.window_off h).2⟩ }
  case txDoneNext => 
    exact { inv with
      udre_request := fun _ => rfl
      waits_behind := fun h => absurd rfl h
      udre_handler_room := fun _ => rfl }
  case txDoneIdle fr busy none_waits =>
    exact { inv with waits_behind := fun h => absurd none_waits h }
  case rxTake => exact { inv with rx_handler_byte := fun _ => Option.some_ne_none _ }
  all_goals exact { inv with }

/-- The agenda is in no clause of the invariant. -/
theorem State.Inv.withAgenda {s : State} (inv : s.Inv) (a : List OpWord) : State.Inv { s with agenda := a } :=
  { inv with }

/-- Settles O53: a step rests, or makes a move of the operation it decodes. -/
theorem stepKeepsInvariant : Obligations.StepKeepsInvariant := by
  intro s t inv h
  cases next : s.agenda with
  | nil =>
    rw [step_of_agenda_nil next] at h
    cases h
    exact inv
  | cons w rest =>
    cases known : decode w with
    | error e =>
      rw [step_of_decode_error next known] at h
      cases h
    | ok i =>
      rw [step_of_decode_ok next known] at h
      exact (exec_move h).keeps_inv (inv.withAgenda rest)

/-- Settles O52: the state after reset is a literal. -/
theorem resetStateIsClean : Obligations.ResetStateIsClean :=
  ⟨⟨rfl, rfl, rfl, rfl, rfl, rfl, rfl, rfl, rfl, rfl, rfl, rfl, rfl, rfl, rfl, rfl, rfl, rfl, rfl⟩,
    by constructor <;> decide⟩

/-! ## What follows from the invariant -/

/-- Settles O35: while `ISR_UDRE` runs nothing fills the holding register, and an overrun needs it full. -/
theorem udreHandlerNeverOverruns : Obligations.UdreHandlerNeverOverruns := by
  intro i s t inv running h
  have m := exec_move h
  cases m
  case writeOverrun full _ => exact absurd (inv.udre_handler_room running) full
  case configure k cfg _ _ _ | initStep k cfg _ _ _ => exact congrArg FaultSet.txOverrun (confEffect_fault k cfg s)
  case disable => exact congrArg FaultSet.txOverrun (writeCtrlB_fault 0#8 s)
  all_goals rfl

section
variable {s : State} (inv : s.Inv)
include inv

/-- U4: step P2 finds the transmitter on. -/
theorem pumpWrite_completes (r : Option Byte) (running : inTxHandler s.isr = true) :
    ∃ t, pumpWrite r s = .next t := by
  cases r with
  | none => exact ⟨_, rfl⟩
  | some b =>
    have on := inv.tx_handler_on running
    rcases dataWrite_cases b s with ⟨off, -⟩ | ⟨-, -, e⟩ | ⟨-, -, -, e⟩ | ⟨-, -, -, e⟩
    · exact absurd (off.symm.trans on) Bool.false_ne_true
    all_goals exact ⟨_, by rw [pumpWrite, e]; rfl⟩

theorem pumpStep_completes : ∃ t, pumpStep s = .next t := by
  unfold pumpStep
  split
  case h_3 _ r at_p2 | h_4 _ r at_p2 => exact pumpWrite_completes inv r (by rw [at_p2]; rfl)
  all_goals exact ⟨_, rfl⟩

/-- R213, U3: step X1 finds a byte. -/
theorem rxcRead_completes (at_x1 : s.isr = some .rxc1) : ∃ t, rxcRead s = .next t := by
  obtain ⟨b, there⟩ := Option.ne_none_iff_exists'.mp (inv.rx_handler_byte at_x1)
  exact ⟨_, rxcRead_of_full there⟩

end

theorem enterHandler_completes (src : Source) (s : State) : ∃ t, enterHandler src s = .next t := by
  unfold enterHandler
  split <;> exact ⟨_, rfl⟩

theorem rxcPush_completes (b : Byte) (s : State) : ∃ t, rxcPush b s = .next t := by
  unfold rxcPush
  split <;> exact ⟨_, rfl⟩

theorem enqueuePush_completes (b : Byte) (s : State) : ∃ t, enqueuePush b s = .next t := by
  unfold enqueuePush
  split
  · exact ⟨_, rfl⟩
  · split <;> exact ⟨_, rfl⟩

theorem configureStep_completes (k : ConfStep) (cfg : Cfg) (s : State) : ∃ t, configureStep k cfg s = .next t := by
  cases k <;> exact ⟨_, rfl⟩

theorem initStep_completes (k : ConfStep) (cfg : Cfg) (s : State) : ∃ t, initStep k cfg s = .next t := by
  cases k <;> exact ⟨_, rfl⟩

theorem initStart_completes (baud : Word) (mode : Half) (s : State) : ∃ t, initStart baud mode s = .next t := by
  unfold initStart
  split <;> exact ⟨_, rfl⟩

/-- Settles O54: only step P2 and step X1 can be refused, and the invariant excludes both refusals. -/
theorem everyOperationCompletes : Obligations.EveryOperationCompletes := by
  intro i s inv
  cases i <;> simp only [exec]
  case configure d ds ff rx tx =>
    unfold execConfigure
    split
    · split
      · exact configureStep_completes _ _ s
      · exact configureStep_completes _ _ s
      all_goals exact ⟨_, rfl⟩
    · exact ⟨_, rfl⟩
  case init baud mode =>
    unfold execInit
    split
    · split
      · exact initStart_completes _ _ s
      · exact initStep_completes _ _ s
      all_goals exact ⟨_, rfl⟩
    · exact ⟨_, rfl⟩
  case hostEnqueue b =>
    unfold execHostEnqueue
    split
    · split
      · exact enqueuePush_completes b s
      all_goals exact ⟨_, rfl⟩
    · exact ⟨_, rfl⟩
  case txkick =>
    unfold execTxkick
    split
    · split <;> exact ⟨_, rfl⟩
    · exact ⟨_, rfl⟩
  case hostDisable =>
    unfold execHostDisable
    split <;> exact ⟨_, rfl⟩
  case hostDequeue =>
    unfold execHostDequeue
    split <;> exact ⟨_, rfl⟩
  case isrRxc =>
    unfold execIsrRxc
    split
    case h_1 => exact enterHandler_completes .rxc s
    case h_2 _ at_x1 => exact rxcRead_completes inv at_x1
    case h_3 _ b _ => exact rxcPush_completes b s
    all_goals exact ⟨_, rfl⟩
  case isrUdre =>
    unfold execIsrUdre
    split
    · exact enterHandler_completes .udre s
    · exact pumpStep_completes inv
    · exact pumpStep_completes inv
    all_goals exact ⟨_, rfl⟩
  case isrTxc =>
    unfold execIsrTxc
    split
    · exact enterHandler_completes .txc s
    · exact pumpStep_completes inv
    · exact pumpStep_completes inv
    all_goals exact ⟨_, rfl⟩
  case pump => exact pumpStep_completes inv
  case hwTxDone =>
    unfold execHwTxDone
    split <;> exact ⟨_, rfl⟩
  case hwRxFrame b =>
    unfold execHwRxFrame
    split
    · split <;> exact ⟨_, rfl⟩
    · exact ⟨_, rfl⟩
  all_goals exact ⟨_, rfl⟩

end Machine
end Sys2Proof
end

section
/-! PROOFS. When an operation happens and when it does not (R237, R244, logs 4 and 12), the handlers' entries and the
pump's two steps (R182 to R187, R211), arrivals (R210), `RESET` (R270). -/

namespace Sys2Proof
namespace Machine

theorem inMain_eq_false {s : State} : s.inMain = false ↔ s.isr ≠ none := by
  rw [← Bool.not_eq_true, inMain_eq_true]

/-! ## The host waits its turn (R244, R18) -/

section
variable {s : State}

/-- In interrupt context no host operation happens. -/
theorem exec_host_of_handler {i : Instr} (agent : agentOf i = .host) (running : s.isr ≠ none) :
    exec i s = blocked s := by
  have inMain := inMain_eq_false.mpr running
  cases i
  case configure | init | hostDisable | hostEnqueue | txkick | hostDequeue =>
    simp [exec, execConfigure, execInit, execHostDisable, execHostEnqueue, execTxkick, execHostDequeue, inMain]
  all_goals cases agent

/-- Inside another host operation none begins. -/
theorem exec_host_of_busy {i : Instr} {p : HostProgress} (agent : agentOf i = .host) (busy : s.host = some p)
    (other : continuesHost i p = false) : exec i s = blocked s := by
  by_cases main : s.isr = none
  · cases i
    case configure | init | hostDisable | hostEnqueue | txkick | hostDequeue =>
      cases p <;> simp_all [exec, execConfigure, execInit, execHostDisable, execHostEnqueue, execTxkick,
        execHostDequeue, continuesHost]
    all_goals cases agent
  · exact exec_host_of_handler agent main

/-- Settles O49: the two guards of a host operation. -/
theorem hostOperationsWaitTheirTurn : Obligations.HostOperationsWaitTheirTurn := by
  rintro i s agent (running | ⟨p, busy, other⟩)
  · exact exec_host_of_handler agent running
  · exact exec_host_of_busy agent busy other

/-- A host that has pushed takes step E2. -/
theorem exec_txkick_of_pushed (main : s.isr = none) (pushed : s.host = some .enqueue2) :
    exec .txkick s = enqueueKick s := by
  simp only [exec, execTxkick, inMain_eq_true.mpr main, if_true, pushed]

/-- The kick is no operation of a free host (log 12). -/
theorem exec_txkick_of_free (free : s.host = none) : exec .txkick s = blocked s := by
  simp [exec, execTxkick, free]

/-- Settles O26: step E2 where a push is in progress, and nothing anywhere else. -/
theorem txkickSetsTxcOnly : Obligations.TxkickSetsTxcOnly := by
  refine fun s => ⟨fun main pushed => ?_, fun elsewhere => ?_⟩
  · rw [exec_txkick_of_pushed main pushed, enqueueKick_eq]
    rfl
  · rcases elsewhere with running | elsewhere
    · exact exec_host_of_handler rfl running
    · rcases Option.eq_none_or_eq_some s.host with free | ⟨p, busy⟩
      · exact exec_txkick_of_free free
      · refine exec_host_of_busy (i := .txkick) rfl busy ?_
        cases p with
        | enqueue2 => exact absurd busy elsewhere
        | init | configure => rfl

/-! ## Handlers: entry (R237), and the steps inside -/

/-- In main context a handler's operation is its entry. -/
theorem exec_handlerOf (src : Source) (main : s.isr = none) : exec (handlerOf src) s = enterHandler src s := by
  cases src <;> simp only [handlerOf, exec, execIsrRxc, execIsrUdre, execIsrTxc, main]

theorem enterHandler_of_enabled {src : Source} (main : s.isr = none) (request : s.request src = true)
    (enable : s.enable src = true) (first : s.outranked src = false) :
    enterHandler src s = done (takeInterrupt src s) .none := by
  simp [enterHandler, State.entryEnabled, main, request, enable, first]

theorem enterHandler_of_disabled {src : Source}
    (no : s.request src = false ∨ s.enable src = false ∨ s.outranked src = true) :
    enterHandler src s = blocked s := by
  rcases no with no | no | no <;> simp [enterHandler, State.entryEnabled, no]

/-- A handler's operation does nothing at another handler's position. -/
theorem exec_irq_elsewhere {i : Instr} {p : IsrProgress} (agent : agentOf i = .irq) (running : s.isr = some p)
    (other : continuesHandler i p = false) : exec i s = blocked s := by
  cases i
  case isrRxc | isrUdre | isrTxc | pump =>
    cases p <;> cases other <;>
      simp only [exec, execIsrRxc, execIsrUdre, execIsrTxc, execPump, pumpStep, running]
  all_goals cases agent

theorem exec_pump_of_main (main : s.isr = none) : exec .pump s = blocked s := by
  simp only [exec, execPump, pumpStep, main]

theorem exec_hwTxDone_of_idle (idle : s.tsr = none) : exec .hwTxDone s = blocked s := by
  simp only [exec, execHwTxDone, idle]

theorem exec_hwRxFrame_of_off (b : Byte) (off : s.rxen = false) : exec (.hwRxFrame b) s = blocked s := by
  simp [exec, execHwRxFrame, off]

/-- R149: a byte the character size cannot carry does not arrive. -/
theorem exec_hwRxFrame_of_large {n : Nat} {b : Byte} (size : sizeBits (fmtSize3 s.fmt) = some n)
    (large : 2 ^ n ≤ b.toNat) : exec (.hwRxFrame b) s = blocked s := by
  have no : deliverable (fmtSize3 s.fmt) b = false := by simp [deliverable, size, large]
  simp [exec, execHwRxFrame, no]

end

/-- Settles O50: each step without its guard, by the lemma that says so. -/
theorem stepsWithoutTheirGuardDoNotHappen : Obligations.StepsWithoutTheirGuardDoNotHappen := by
  rintro i s (⟨src, rfl, main, no⟩ | ⟨rfl, main⟩ | ⟨agent, p, running, other⟩ | ⟨rfl, idle⟩ | ⟨b, rfl, off | ⟨n, size, large⟩⟩)
  · rw [exec_handlerOf src main]
    exact enterHandler_of_disabled no
  · exact exec_pump_of_main main
  · exact exec_irq_elsewhere agent running other
  · exact exec_hwTxDone_of_idle idle
  · exact exec_hwRxFrame_of_off b off
  · exact exec_hwRxFrame_of_large size large

/-- Settles O27. -/
theorem txcHandlerEntry : Obligations.TxcHandlerEntry := by
  intro s main request enable first
  exact (exec_handlerOf .txc main).trans (enterHandler_of_enabled main request enable first)

/-- Settles O28. -/
theorem udreHandlerEntry : Obligations.UdreHandlerEntry := by
  intro s main request enable first
  exact (exec_handlerOf .udre main).trans (enterHandler_of_enabled main request enable first)

/-- Settles O42. -/
theorem rxcHandlerEntry : Obligations.RxcHandlerEntry := by
  intro s main there enable first
  exact (exec_handlerOf .rxc main).trans
    (enterHandler_of_enabled main (Option.isSome_iff_ne_none.mpr there) enable first)

/-! ## Rest (R294, R190) -/

/-- A source that is not both requesting and enabled is not entered. -/
theorem enterHandler_of_quiet {s : State} {src : Source} (quiet : (s.request src && s.enable src) = false) :
    enterHandler src s = blocked s := by
  rw [Bool.and_eq_false_iff] at quiet
  exact enterHandler_of_disabled (quiet.imp id .inl)

/-- While the receive handler runs, or none, the operations of the transmit handlers and the pump have no step. -/
theorem continuesHandler_of_not_inTxHandler {i : Instr} {p : IsrProgress} (outside : inTxHandler (some p) = false)
    (other : i ≠ .isrRxc) : continuesHandler i p = false := by
  cases p
  case rxc1 | rxc2 =>
    cases i
    case isrRxc => exact absurd rfl other
    all_goals rfl
  all_goals cases outside

/-- A transmit handler's operation does nothing while its request is 0 and no transmit handler runs. -/
theorem exec_txHandler_of_idle {s : State} {src : Source} (idle : inTxHandler s.isr = false)
    (who : src = .txc ∨ src = .udre) (low : s.request src = false) : exec (handlerOf src) s = blocked s := by
  cases running : s.isr with
  | none => rw [exec_handlerOf src running]; exact enterHandler_of_disabled (.inl low)
  | some p =>
    rw [running] at idle
    rcases who with rfl | rfl <;>
      exact exec_irq_elsewhere rfl running (continuesHandler_of_not_inTxHandler idle nofun)

/-- Settles O56: in a quiescent state no source both requests and is enabled and nothing shifts; in an idle transmitter no
transmit handler has a request. -/
theorem quiescentBlockRests : Obligations.QuiescentBlockRests := by
  refine fun i s => ⟨?_, ?_⟩
  · rintro ⟨-, main, -, idle, quiet⟩ (irq | rfl | ⟨⟨b, rfl⟩, off⟩)
    · have handler (src : Source) : exec (handlerOf src) s = blocked s :=
        (exec_handlerOf src main).trans (enterHandler_of_quiet (quiet src))
      cases i
      case isrRxc => exact handler .rxc
      case isrUdre => exact handler .udre
      case isrTxc => exact handler .txc
      case pump => exact exec_pump_of_main main
      all_goals cases irq
    · exact exec_hwTxDone_of_idle idle
    · exact exec_hwRxFrame_of_off b off
  · rintro ⟨-, idle, txc, udre, handler⟩ - (rfl | rfl | rfl | rfl | ⟨rfl, unpushed⟩)
    · exact exec_txHandler_of_idle handler (.inl rfl) txc
    · exact exec_txHandler_of_idle handler (.inr rfl) udre
    · rcases Option.eq_none_or_eq_some s.isr with main | ⟨p, running⟩
      · exact exec_pump_of_main main
      · rw [running] at handler
        exact exec_irq_elsewhere (i := .pump) rfl running (continuesHandler_of_not_inTxHandler handler nofun)
    · exact exec_hwTxDone_of_idle idle
    · exact (txkickSetsTxcOnly s).2 (.inr unpushed)

/-! ## The pump (R186, R187) -/

theorem exec_of_pumpsTxc {i : Instr} {s : State} (who : PumpsTxc i)
    (running : s.isr = some .txc1 ∨ ∃ r, s.isr = some (.txc2 r)) : exec i s = pumpStep s := by
  rcases who with rfl | rfl <;> rcases running with e | ⟨r, e⟩ <;> simp only [exec, execPump, execIsrTxc, e]

theorem exec_of_pumpsUdre {i : Instr} {s : State} (who : PumpsUdre i)
    (running : s.isr = some .udre1 ∨ ∃ r, s.isr = some (.udre2 r)) : exec i s = pumpStep s := by
  rcases who with rfl | rfl <;> rcases running with e | ⟨r, e⟩ <;> simp only [exec, execPump, execIsrUdre, e]

/-- Step P1 takes the front of the queue into the handler's position. -/
theorem pumpPop_cons {s : State} {b : Byte} {rest : List Byte} (position : Option Byte → IsrProgress)
    (front : s.txq = b :: rest) :
    pumpPop position s = done { s with txq := rest, isr := some (position (some b)) } .none := by
  rw [pumpPop, front, tryPop_cons]

/-- Step P1 on an empty queue keeps the queue. -/
theorem pumpPop_nil {s : State} (position : Option Byte → IsrProgress) (empty : s.txq = []) :
    pumpPop position s = done { s with isr := some (position none) } .none := by
  rw [pumpPop, empty, tryPop_nil, ← empty]

/-- Settles O29: both handlers stand before the same pop. -/
theorem pumpPopsOneByte : Obligations.PumpPopsOneByte := by
  refine fun s i => ⟨fun ⟨at_p1, who⟩ => ?_, fun ⟨at_p1, who⟩ => ?_⟩
  · have pop : exec i s = pumpPop .txc2 s := by rw [exec_of_pumpsTxc who (.inl at_p1), pumpStep, at_p1]
    rw [pop]
    exact ⟨fun _ _ front => pumpPop_cons _ front, fun empty => pumpPop_nil _ empty⟩
  · have pop : exec i s = pumpPop .udre2 s := by rw [exec_of_pumpsUdre who (.inl at_p1), pumpStep, at_p1]
    rw [pop]
    exact ⟨fun _ _ front => pumpPop_cons _ front, fun empty => pumpPop_nil _ empty⟩

theorem exec_of_beforeWrite {i : Instr} {s : State} {r : Option Byte} (at_p2 : BeforeWrite i s r) :
    exec i s = pumpWrite r s := by
  obtain ⟨e, who⟩ | ⟨e, who⟩ := at_p2
  · rw [exec_of_pumpsTxc who (.inr ⟨r, e⟩), pumpStep, e]
  · rw [exec_of_pumpsUdre who (.inr ⟨r, e⟩), pumpStep, e]

section
variable {s : State} (b : Byte)

theorem dataWrite_of_off (off : s.txen = false) : dataWrite b s = .error .dataWriteDisabled := by
  simp [dataWrite, off]

theorem dataWrite_of_full {x : Byte} (on : s.txen = true) (full : s.txb = some x) :
    dataWrite b s = .ok { s with
      txWritten := s.txWritten ++ [b], udreReq := false, fault := { s.fault with txOverrun := true } } := by
  simp [dataWrite, on, full, recordFault]

theorem dataWrite_of_idle (on : s.txen = true) (room : s.txb = none) (idle : s.tsr = none) :
    dataWrite b s = .ok { s with
      txWritten := s.txWritten ++ [b], udreReq := true
      tsr := some { byte := b, fmt := s.fmt, garbled := false } } := by
  simp [dataWrite, on, room, idle, absorb, State.fmt, State.csz2]

theorem dataWrite_of_busy {fr : TxFrame} (on : s.txen = true) (room : s.txb = none) (busy : s.tsr = some fr) :
    dataWrite b s = .ok { s with txWritten := s.txWritten ++ [b], udreReq := false, txb := some b } := by
  simp [dataWrite, on, room, busy]

end

/-- Settles O30: step P2 is the write of what the handler holds, and the return. -/
theorem pumpWritesTheDataRegister : Obligations.PumpWritesTheDataRegister := by
  intro s i r at_p2
  rw [exec_of_beforeWrite at_p2]
  refine ⟨?_, ?_, ?_⟩
  · rintro rfl
    rfl
  · rintro b rfl off
    rw [pumpWrite, dataWrite_of_off b off]
  · rintro b rfl on
    refine ⟨fun x full => ?_, fun room idle => ?_, fun fr room busy => ?_⟩
    · rw [pumpWrite, dataWrite_of_full b on full]
      rfl
    · rw [pumpWrite, dataWrite_of_idle b on room idle]
      rfl
    · rw [pumpWrite, dataWrite_of_busy b on room busy]
      rfl

/-! ## Arrivals (R210) and `RESET` (R270) -/

/-- A size of eight or more bits carries every byte. -/
theorem deliverable_of_fits {size3 : BitVec 3} {b : Byte}
    (fits : ∀ n, sizeBits size3 = some n → n < 8 → b.toNat < 2 ^ n) : deliverable size3 b = true := by
  unfold deliverable
  split
  case h_1 n size =>
    rw [decide_eq_true_eq]
    by_cases small : n < 8
    · exact fits n size small
    · exact b.isLt.trans_le (Nat.pow_le_pow_right Nat.two_pos (by omega))
  case h_2 => rfl

theorem exec_hwRxFrame_of_room {s : State} {b : Byte} (arrives : (s.rxen && deliverable (fmtSize3 s.fmt) b) = true)
    (room : s.rxb = none) : exec (.hwRxFrame b) s = done { s with rxb := some b } .none := by
  simp only [exec, execHwRxFrame, arrives, if_true, room]

theorem exec_hwRxFrame_of_full {s : State} {b x : Byte} (arrives : (s.rxen && deliverable (fmtSize3 s.fmt) b) = true)
    (full : s.rxb = some x) : exec (.hwRxFrame b) s = done (recordFault .rxOverrun s) .none := by
  simp only [exec, execHwRxFrame, arrives, if_true, full]

/-- Settles O41: the byte arrives, and the input register decides what comes of it. -/
theorem rxFrameArrives : Obligations.RxFrameArrives := by
  intro s b on fits
  have arrives : (s.rxen && deliverable (fmtSize3 s.fmt) b) = true := by rw [on, deliverable_of_fits fits]; rfl
  exact ⟨fun room => exec_hwRxFrame_of_room arrives room, fun _ full => exec_hwRxFrame_of_full arrives full⟩

/-- Settles O51: the reset block is written out; what `CTRLA` reads of it is a literal. -/
theorem resetGivesTheResetValues : Obligations.ResetGivesTheResetValues := by
  refine fun s => ⟨_, rfl, rfl, ?_⟩
  change bit false ++ bit false ++ bit true ++ 0#3 ++ bit false ++ 0#1 = 0x20#8
  decide

end Machine
end Sys2Proof
end

section
/-! PROOFS. The registers: what the bus reaches (R65), what a read returns and a write leaves (R21 to R25, R66), and the
losses of a `CTRLB` write by the draw it takes (R172). -/

namespace Sys2Proof
namespace Machine

/-! ## The bus (R65, U8) -/

/-- Each register answers at its offset and width. -/
theorem regAt_offset (base : Nat) :
    regAt base base 1 = some .ctrlA ∧ regAt base (base + 1) 1 = some .ctrlB ∧ regAt base (base + 2) 1 = some .ctrlC ∧
      regAt base (base + 3) 1 = some .data ∧ regAt base (base + 4) 4 = some .baud := by
  simp [regAt]

/-- Nothing else answers. -/
theorem regAt_eq_none {base addr n : Nat} (nowhere : ∀ k w, (k, w) ∈ [(0, 1), (1, 1), (2, 1), (3, 1), (4, 4)] →
    ¬ (addr = base + k ∧ n = w)) : regAt base addr n = none := by
  have ctrlA := nowhere 0 1 (by simp)
  have ctrlB := nowhere 1 1 (by simp)
  have ctrlC := nowhere 2 1 (by simp)
  have data := nowhere 3 1 (by simp)
  have baud := nowhere 4 4 (by simp)
  simp only [Nat.add_zero] at ctrlA
  simp only [regAt, ctrlA, ctrlB, ctrlC, data, baud, if_false]

theorem access_of_regAt {s : State} {addr n : Nat} {r : Reg} (v : Word) (at_r : regAt s.params.base addr n = some r) :
    memRead addr n s = regRead r s ∧ memWrite addr n v s = regWrite r v s := by
  simp only [memRead, memWrite, at_r, and_self]

/-- Settles O58: an access is the access to the register that answers, and refused where none does. -/
theorem busReachesTheRegistersOnly : Obligations.BusReachesTheRegistersOnly := by
  refine fun s addr n v => ⟨?_, fun nowhere => ?_⟩
  · obtain ⟨ctrlA, ctrlB, ctrlC, data, baud⟩ := regAt_offset s.params.base
    rintro r k w mem rfl rfl
    simp only [List.mem_cons, Prod.mk.injEq, List.not_mem_nil, or_false] at mem
    obtain ⟨rfl, rfl, rfl⟩ | ⟨rfl, rfl, rfl⟩ | ⟨rfl, rfl, rfl⟩ | ⟨rfl, rfl, rfl⟩ | ⟨rfl, rfl, rfl⟩ := mem
    · exact access_of_regAt v ctrlA
    · exact access_of_regAt v ctrlB
    · exact access_of_regAt v ctrlC
    · exact access_of_regAt v data
    · exact access_of_regAt v baud
  · simp only [memRead, memWrite, regAt_eq_none nowhere, and_self]

/-! ## The losses of a `CTRLB` write (R172) -/

/-- The latches with the drawn bytes lost: `txOff` and `rxOff` say what goes off. -/
def afterLoss (txOff rxOff : Bool) (d : LossDraw) (s : State) : State :=
  { s with
    rxb := if rxOff && d.loseRxb then none else s.rxb
    tsr := if txOff && d.loseTsr then none else s.tsr
    txb := if txOff && d.loseTxb then none else s.txb }

theorem filter_not_const {α : Type} (o : Option α) (lose : Bool) :
    (o.filter fun _ => !lose) = if lose then none else o := by
  cases o <;> cases lose <;> rfl

/-- Absorption and the loss of the input register's byte are about different latches. -/
theorem loseRx_absorbWaiting (d : LossDraw) (s : State) : loseRx d (absorbWaiting s) = absorbWaiting (loseRx d s) := by
  unfold absorbWaiting
  cases h : s.tsr <;> cases h' : s.txb <;> simp [loseRx, h, h']
  rfl

/-- A write that turns something off takes the first draw listed, loses what it says, and absorbs what waits if the
transmitter went off. -/
theorem disableLoss_of_draw {txOff rxOff : Bool} {s : State} {d : LossDraw} {rest : List LossDraw}
    (draw : s.draws = d :: rest) (off : txOff = true ∨ rxOff = true) :
    disableLoss txOff rxOff s =
      if txOff then absorbWaiting (afterLoss txOff rxOff d { s with draws := rest })
      else afterLoss txOff rxOff d { s with draws := rest } := by
  cases txOff <;> cases rxOff
  · simp at off
  · simp [disableLoss, takeDraw, draw, loseRx, afterLoss, filter_not_const]
  · simp [disableLoss, takeDraw, draw, loseTx, afterLoss, filter_not_const]
  · simp [disableLoss, takeDraw, draw, loseTx, loseRx_absorbWaiting]
    simp [loseRx, afterLoss, filter_not_const]

section
variable {txOff rxOff : Bool} {s : State} {d : LossDraw} {rest : List LossDraw} (draw : s.draws = d :: rest)
  (off : txOff = true ∨ rxOff = true)
include draw off

/-- A byte left waiting above an empty shift register is absorbed. -/
theorem disableLoss_absorbs {b : Byte} (tx : txOff = true) (empty : (afterLoss txOff rxOff d s).tsr = none)
    (waits : (afterLoss txOff rxOff d s).txb = some b) :
    disableLoss txOff rxOff s =
      absorb b { afterLoss txOff rxOff d { s with draws := rest } with txb := none } := by
  rw [disableLoss_of_draw draw off, if_pos tx]
  rcases absorbWaiting_cases (afterLoss txOff rxOff d { s with draws := rest }) with ⟨b', -, waits', e⟩ | ⟨busy | none_waits, -⟩
  · rw [e, Option.some.inj (waits.symm.trans waits')]
  · exact absurd empty busy
  · exact absurd (none_waits.symm.trans waits) (Option.some_ne_none b).symm

/-- Otherwise nothing moves. -/
theorem disableLoss_keeps (stays : txOff = false ∨ (afterLoss txOff rxOff d s).tsr ≠ none ∨
    (afterLoss txOff rxOff d s).txb = none) :
    disableLoss txOff rxOff s = afterLoss txOff rxOff d { s with draws := rest } := by
  rw [disableLoss_of_draw draw off]
  rcases stays with tx | stays
  · rw [tx]
    rfl
  · rcases absorbWaiting_cases (afterLoss txOff rxOff d { s with draws := rest }) with ⟨b, empty, waits, -⟩ | ⟨-, e⟩
    · rcases stays with busy | none_waits
      · exact absurd empty busy
      · exact absurd (none_waits.symm.trans waits) (Option.some_ne_none b).symm
    · rw [e, ite_self]

end

/-! ## The registers, read and written (R21 to R25, R66) -/

/-- A byte put on the bus and taken off it is the byte. -/
theorem setWidth_byte (v : Byte) : (v.setWidth 32 : Word).setWidth 8 = v := by
  simp

/-- The state of a `CTRLB` write before its losses: the value stored, the frame garbled if `CSZ2` changed. -/
def storeCtrlB (v : Byte) (s : State) : State :=
  { s with
    ctrlB := v &&& 0xFC#8
    tsr := s.tsr.map fun fr => { fr with garbled := fr.garbled || (v.getLsbD 2 != s.csz2) } }

theorem writeCtrlB_eq (v : Byte) (s : State) :
    writeCtrlB v s = disableLoss (s.txen && !v.getLsbD 3) (s.rxen && !v.getLsbD 4) (storeCtrlB v s) := by
  rw [writeCtrlB, garble_eq]
  rfl

/-- R172, R173: what a `CTRLB` write with a draw listed leaves. -/
theorem writeCtrlB_of_nothing_off {v : Byte} {s : State} (tx : (s.txen && !v.getLsbD 3) = false)
    (rx : (s.rxen && !v.getLsbD 4) = false) : writeCtrlB v s = storeCtrlB v s := by
  rw [writeCtrlB_eq, tx, rx, disableLoss_off]

/-- The format of a byte that a `CTRLB` write absorbs has the `CSZ2` written. -/
theorem storeCtrlB_fmt (v : Byte) (s : State) : (storeCtrlB v s).fmt = { s.fmt with csz2 := v.getLsbD 2 } := by
  simp [storeCtrlB, State.fmt, State.csz2]

/-- Settles O59: the reads report what is stored; each write is its own equation, that of `CTRLB` with the losses of
`disableLoss`, that of `DATA` by the two transmit registers. -/
theorem controlRegistersReadBack : Obligations.ControlRegistersReadBack := by
  refine fun s v w => ⟨rfl, rfl, rfl, rfl, fun b there => ?_, ⟨writeCtrlA v s, ?_, ?_, ?_⟩, ⟨writeCtrlC v s, ?_, ?_, ?_⟩,
    ⟨writeBaud w s, rfl, ?_, ?_⟩, ⟨writeCtrlB v s, ?_, ?_, fun tx rx => ?_, fun d rest draw off => ⟨?_, ?_⟩⟩,
    fun off => ?_, fun on => ⟨fun x full => ?_, fun room idle => ?_, fun fr room busy => ?_⟩⟩
  · simp only [regRead, dataRead, there]
    rfl
  · rw [regWrite, setWidth_byte]
  · rw [writeCtrlA, garble_eq]
  · simp [regRead, State.ctrlA, State.rxc, State.udre]
  · rw [regWrite, setWidth_byte]
  · rw [writeCtrlC, garble_eq]
  · rw [regRead, writeCtrlC_ctrlC]
  · rw [writeBaud, garble_eq]
  · rw [regRead, writeBaud_baud]
  · rw [regWrite, setWidth_byte]
  · rw [regRead, writeCtrlB_ctrlB]
  · exact writeCtrlB_of_nothing_off tx rx
  · intro b tx empty waits
    rw [writeCtrlB_eq, disableLoss_absorbs (s := storeCtrlB v s) draw off tx empty waits, absorb, ← storeCtrlB_fmt]
    rfl
  · intro stays
    rw [writeCtrlB_eq, disableLoss_keeps (s := storeCtrlB v s) draw off stays]
    rfl
  · rw [regWrite, setWidth_byte, dataWrite_of_off v off]
  · rw [regWrite, setWidth_byte, dataWrite_of_full v on full]
  · rw [regWrite, setWidth_byte, dataWrite_of_idle v on room idle]
  · rw [regWrite, setWidth_byte, dataWrite_of_busy v on room busy]

end Machine
end Sys2Proof
end

section
/-! PROOFS. The configuration operations (R160 to R173): the step at which the host stands, what it writes and what it
leaves, the eight steps of `INIT` run together, and the disable write by its draw. -/

namespace Sys2Proof
namespace Machine

/-! ## The step at which the host stands (R41, R160, R167) -/

section
variable {s : State} {k : ConfStep} {cfg : Cfg}

theorem exec_configure_of_free (d : Word) (ds : Bool) (ff : Half) (rx tx : Bool) (main : s.isr = none)
    (free : s.host = none) : exec (.configure d ds ff rx tx) s = configureStep .c1 (cfgOf d ds ff rx tx) s := by
  simp only [exec, execConfigure, inMain_eq_true.mpr main, if_true, free]

theorem exec_configure_of_step (d : Word) (ds : Bool) (ff : Half) (rx tx : Bool) (main : s.isr = none)
    (at_k : s.host = some (.configure k cfg)) : exec (.configure d ds ff rx tx) s = configureStep k cfg s := by
  simp only [exec, execConfigure, inMain_eq_true.mpr main, if_true, at_k]

theorem exec_init_of_free (baud : Word) (mode : Half) (main : s.isr = none) (free : s.host = none) :
    exec (.init baud mode) s = initStart baud mode s := by
  simp only [exec, execInit, inMain_eq_true.mpr main, if_true, free]

theorem exec_init_of_step (baud : Word) (mode : Half) (main : s.isr = none) (at_k : s.host = some (.init k cfg)) :
    exec (.init baud mode) s = initStep k cfg s := by
  simp only [exec, execInit, inMain_eq_true.mpr main, if_true, at_k]

theorem exec_hostDisable_of_free (main : s.isr = none) (free : s.host = none) :
    exec .hostDisable s = done (writeCtrlB 0x00#8 s) .none := by
  simp only [exec, execHostDisable, inMain_eq_true.mpr main, free, Option.isNone_none, Bool.and_self, if_true]

variable (k cfg s)

theorem configureStep_eq :
    configureStep k cfg s = done { confEffect k cfg s with host := (nextConfStep k).map fun k' => .configure k' cfg }
      (if k = .c7 then .none else .pending) := by
  cases k <;> rfl

theorem initStep_eq :
    initStep k cfg s = done { confEffect k cfg s with
      host := (nextConfStep k).map fun k' => .init k' cfg
      phase := if k = .c7 then .operational else s.phase } (if k = .c7 then .ok else .pending) := by
  cases k <;> simp [initStep, nextConfStep]

end

/-! ## What a step writes and what it leaves (R160 to R166) -/

section
variable (k : ConfStep) (cfg : Cfg) (s : State)

theorem confEffect_writes : ConfWrites k cfg s (confEffect k cfg s) := by
  cases k
  case c3 =>
    rw [ConfWrites, confEffect, writeCtrlB_ctrlB, imgB0Of_and, imgB0Of_eq]
    simp
  case c6 =>
    rw [ConfWrites, confEffect, writeCtrlB_ctrlB, imgB1Of_and, imgB1Of_eq]
    simp
  all_goals simp [ConfWrites, confEffect]

theorem confEffect_frame : ConfFrame s (confEffect k cfg s) := by simp [ConfFrame]

end

theorem writeCtrlB_frame (v : Byte) (s : State) : ConfFrame s (writeCtrlB v s) := by simp [ConfFrame]

theorem ConfFrame.trans {s t u : State} (h : ConfFrame s t) (h' : ConfFrame t u) : ConfFrame s u := by
  simp only [ConfFrame] at *
  simp [*]

/-- Settles O13: `CONFIGURE` takes the step at which the host stands; what it writes and leaves is the step's effect. -/
theorem configureTakesItsSteps : Obligations.ConfigureTakesItsSteps := by
  refine fun s d ds ff rx tx main => ⟨fun free => ?_, fun k cfg at_k => ?_⟩
  · exact ⟨_, cfgOf d ds ff rx tx, (exec_configure_of_free d ds ff rx tx main free).trans (configureStep_eq s .c1 _), rfl,
      rfl, confEffect_phase .c1 _ s, confEffect_writes .c1 _ s, confEffect_frame .c1 _ s⟩
  · exact ⟨_, (exec_configure_of_step d ds ff rx tx main at_k).trans (configureStep_eq s k cfg), rfl,
      confEffect_phase k cfg s, confEffect_writes k cfg s, confEffect_frame k cfg s⟩

/-- Settles O14: step I0 where the selector succeeds. -/
theorem initStartsConfiguring : Obligations.InitStartsConfiguring := by
  intro s baud mode d ds main free sel
  rw [exec_init_of_free baud mode main free, initStart, sel]
  rfl

/-- Settles O15: step I0 where the selector fails. -/
theorem failingInitChangesNothing : Obligations.FailingInitChangesNothing := by
  intro s baud mode main free fails
  have none : selectBaud s.params.clockHz.toNat baud.toNat = none :=
    selectBaud_eq_none_iff_lt.mpr (fails.imp (congrArg BitVec.toNat) id)
  refine ⟨?_, rfl, rfl, rfl⟩
  rw [exec_init_of_free baud mode main free, initStart, none]
  rfl

/-- Settles O16, as O13 for `INIT`; step C7 has its own phase and result. -/
theorem initTakesItsSteps : Obligations.InitTakesItsSteps := by
  intro s baud mode k cfg main at_k
  exact ⟨_, (exec_init_of_step baud mode main at_k).trans (initStep_eq s k cfg), rfl, rfl, rfl,
    confEffect_writes k cfg s, confEffect_frame k cfg s⟩

/-! ## Garbling (R173) -/

/-! A write of one of the four values changes the format exactly if it changes that value. -/

section
variable (f : Fmt)

theorem csz2_changes_fmt (z : Bool) : (z != f.csz2) = decide ({ f with csz2 := z } ≠ f) := by
  cases f
  simp [bne, beq_eq_decide]

theorem ctrlC_changes_fmt (v : Byte) : (v != f.ctrlC) = decide ({ f with ctrlC := v } ≠ f) := by
  cases f
  simp [bne, beq_eq_decide]

theorem u2x_changes_fmt (u : Bool) : (u != f.u2x) = decide ({ f with u2x := u } ≠ f) := by
  cases f
  simp [bne, beq_eq_decide]

theorem baud_changes_fmt (d : Word) : (d != f.baud) = decide ({ f with baud := d } ≠ f) := by
  cases f
  simp [bne, beq_eq_decide]

end

/-- A write that moves no byte, and garbles by whether it changes the format. -/
theorem latchesKept_of_garbled {s t : State} {f : Fmt} {changed : Bool}
    (moves : t.txb = s.txb ∧ t.rxb = s.rxb ∧ t.udreReq = s.udreReq ∧ t.draws = s.draws ∧ t.drawCount = s.drawCount)
    (tsr : t.tsr = s.tsr.map fun fr => { fr with garbled := fr.garbled || changed }) (fmt : t.fmt = f)
    (changes : changed = decide (f ≠ s.fmt)) : LatchesKept s t := by
  subst fmt changes
  obtain ⟨txb, rxb, udreReq, draws, drawCount⟩ := moves
  exact ⟨txb, rxb, udreReq, draws, drawCount, tsr⟩

theorem storeCtrlB_latchesKept (v : Byte) (s : State) : LatchesKept s (storeCtrlB v s) :=
  latchesKept_of_garbled ⟨rfl, rfl, rfl, rfl, rfl⟩ rfl (storeCtrlB_fmt v s) (csz2_changes_fmt s.fmt _)

theorem writeCtrlC_latchesKept (v : Byte) (s : State) : LatchesKept s (writeCtrlC v s) :=
  latchesKept_of_garbled (by simp) (writeCtrlC_tsr v s) (by simp [State.fmt]) (ctrlC_changes_fmt s.fmt v)

theorem writeBaud_latchesKept (v : Word) (s : State) : LatchesKept s (writeBaud v s) :=
  latchesKept_of_garbled (by simp) (writeBaud_tsr v s) (by simp [State.fmt]) (baud_changes_fmt s.fmt v)

theorem writeCtrlA_latchesKept (v : Byte) (s : State) : LatchesKept s (writeCtrlA v s) :=
  latchesKept_of_garbled (by simp) (writeCtrlA_tsr v s) (by simp [State.fmt]) (u2x_changes_fmt s.fmt _)

theorem confEffect_latchesKept (k : ConfStep) (cfg : Cfg) {s : State}
    (off : k = .c1 ∨ k = .c3 ∨ k = .c6 → s.txen = false ∧ s.rxen = false) : LatchesKept s (confEffect k cfg s) := by
  cases k
  case c1 | c3 | c6 =>
    obtain ⟨tx, rx⟩ := off (by simp)
    rw [confEffect, writeCtrlB_of_nothing_off (by rw [tx]; rfl) (by rw [rx]; rfl)]
    exact storeCtrlB_latchesKept _ s
  case c2 => exact writeCtrlC_latchesKept _ s
  case c4 => exact writeBaud_latchesKept _ s
  case c5 => exact writeCtrlA_latchesKept _ s
  case c7 => exact ⟨rfl, rfl, rfl, rfl, rfl, by simp [confEffect, State.fmt, State.csz2]⟩

/-- Settles O17. -/
theorem configurationGarblesOnChange : Obligations.ConfigurationGarblesOnChange := by
  rintro i s k cfg main (⟨baud, mode, rfl, at_k⟩ | ⟨d, ds, ff, rx, tx, rfl, at_k⟩) off
  · refine ⟨_, (exec_init_of_step baud mode main at_k).trans (initStep_eq s k cfg), confEffect_latchesKept k cfg off⟩
  · exact ⟨_, (exec_configure_of_step d ds ff rx tx main at_k).trans (configureStep_eq s k cfg),
      confEffect_latchesKept k cfg off⟩

/-! ## The disable write (R161, R171, R172) -/

/-! A `CTRLB` write neither reads nor writes the host's position. -/

/-- The state with the host at another position. -/
def State.withHost (h : Option HostProgress) (s : State) : State := { s with host := h }

section
variable (h : Option HostProgress) (s : State)

theorem absorbWaiting_withHost : absorbWaiting (s.withHost h) = (absorbWaiting s).withHost h := by
  cases busy : s.tsr <;> cases waits : s.txb <;> simp [absorbWaiting, State.withHost, busy, waits]
  rfl

theorem loseTx_withHost (d : LossDraw) : loseTx d (s.withHost h) = (loseTx d s).withHost h :=
  absorbWaiting_withHost h
    { s with tsr := s.tsr.filter fun _ => !d.loseTsr, txb := s.txb.filter fun _ => !d.loseTxb }

theorem takeDraw_withHost : takeDraw (s.withHost h) = ((takeDraw s).1, (takeDraw s).2.withHost h) := by
  cases draw : s.draws <;> simp [takeDraw, State.withHost, draw]

theorem disableLoss_withHost (x y : Bool) : disableLoss x y (s.withHost h) = (disableLoss x y s).withHost h := by
  cases x <;> cases y <;> simp [disableLoss, takeDraw_withHost, loseTx_withHost] <;> rfl

theorem writeCtrlB_withHost (v : Byte) : writeCtrlB v (s.withHost h) = (writeCtrlB v s).withHost h := by
  rw [writeCtrlB_eq, writeCtrlB_eq, ← disableLoss_withHost]
  rfl

end

/-- Settles O18: step C1 is the write that `HOST_DISABLE` makes, and the write does not depend on where the host
stands. -/
theorem disableStepIsTheHostDisableWrite : Obligations.DisableStepIsTheHostDisableWrite := by
  intro s u main disabled
  have write : u = ((writeCtrlB 0x00#8 s).withHost none).ret .none := by
    rw [exec_hostDisable_of_free (s := { s with host := none }) main rfl, done_eq_next] at disabled
    exact disabled.trans (congrArg (State.ret · .none) (writeCtrlB_withHost none s 0x00#8))
  subst write
  refine ⟨fun d ds ff rx tx free => ⟨cfgOf d ds ff rx tx, ?_⟩, fun baud mode cfg at_c1 => ?_⟩
  · exact exec_configure_of_free d ds ff rx tx main free
  · exact exec_init_of_step baud mode main at_c1

/-- With 0 written, what goes off is what was on. -/
theorem writeCtrlB_zero (s : State) : writeCtrlB 0x00#8 s = disableLoss s.txen s.rxen (storeCtrlB 0x00#8 s) := by
  simp [writeCtrlB_eq]

section
variable {txOff rxOff : Bool} {s : State} {d : LossDraw} {rest : List LossDraw} (draw : s.draws = d :: rest)
include draw

/-- The input register after a `CTRLB` write, by the draw. -/
theorem disableLoss_rxb_of_draw : (disableLoss txOff rxOff s).rxb = (afterLoss txOff rxOff d s).rxb := by
  by_cases off : txOff = true ∨ rxOff = true
  · rw [disableLoss_of_draw draw off]
    cases txOff <;> simp [afterLoss]
  · simp only [not_or, Bool.not_eq_true] at off
    obtain ⟨rfl, rfl⟩ := off
    rfl

/-- The transmit latches where no byte is left waiting above an empty shift register. -/
theorem disableLoss_tx_of_draw (stays : txOff = false ∨ (afterLoss txOff rxOff d s).tsr ≠ none ∨
    (afterLoss txOff rxOff d s).txb = none) :
    (disableLoss txOff rxOff s).tsr = (afterLoss txOff rxOff d s).tsr ∧
      (disableLoss txOff rxOff s).txb = (afterLoss txOff rxOff d s).txb ∧
      (disableLoss txOff rxOff s).udreReq = s.udreReq := by
  by_cases off : txOff = true ∨ rxOff = true
  · rw [disableLoss_keeps draw off stays]
    exact ⟨rfl, rfl, rfl⟩
  · simp only [not_or, Bool.not_eq_true] at off
    obtain ⟨rfl, rfl⟩ := off
    exact ⟨rfl, rfl, rfl⟩

end

/-- Settles O21: the write turns off what was on, and its losses are those of `disableLoss` by the draw listed. -/
theorem hostDisableLosesOnlyWhatIsDrawn : Obligations.HostDisableLosesOnlyWhatIsDrawn := by
  intro s d rest main free draw
  refine ⟨_, exec_hostDisable_of_free main free, by simp, by simp, by simp, by simp, by simp, by simp, by simpa using free,
    writeCtrlB_frame 0x00#8 s, ?_⟩
  simp only [ret_rxb, ret_tsr, ret_txb, ret_udreReq, writeCtrlB_zero]
  have draw' : (storeCtrlB 0x00#8 s).draws = d :: rest := draw
  have keptRxb : (afterLoss s.txen s.rxen d (storeCtrlB 0x00#8 s)).rxb =
      if s.rxen = true ∧ d.loseRxb = true then none else s.rxb := by simp [afterLoss, storeCtrlB]
  have keptTsr : (afterLoss s.txen s.rxen d (storeCtrlB 0x00#8 s)).tsr =
      if s.txen = true ∧ d.loseTsr = true then none
      else s.tsr.map fun fr => { fr with garbled := fr.garbled || s.csz2 } := by simp [afterLoss, storeCtrlB]
  have keptTxb : (afterLoss s.txen s.rxen d (storeCtrlB 0x00#8 s)).txb =
      if s.txen = true ∧ d.loseTxb = true then none else s.txb := by simp [afterLoss, storeCtrlB]
  rw [← keptRxb, ← keptTsr, ← keptTxb]
  refine ⟨disableLoss_rxb_of_draw draw', fun b tx empty waits => ?_, fun stays => disableLoss_tx_of_draw draw' stays⟩
  have format : (storeCtrlB 0x00#8 s).fmt = { s.fmt with csz2 := false } := storeCtrlB_fmt 0x00#8 s
  rw [disableLoss_absorbs draw' (.inl tx) tx empty waits, ← format]
  exact ⟨rfl, rfl, rfl⟩

/-- A disabled transmitter keeps each latch, empties it, or moves the waiting byte into the shift register (R172). -/
theorem loseTx_latches (d : LossDraw) (s : State) :
    ((loseTx d s).txb = s.txb ∨ (loseTx d s).txb = none) ∧
    ((loseTx d s).tsr = none ∨ (loseTx d s).tsr = s.tsr ∨ (loseTx d s).tsr.map TxFrame.byte = s.txb) := by
  simp only [loseTx, filter_not_const]
  rcases absorbWaiting_cases
      { s with tsr := if d.loseTsr then none else s.tsr, txb := if d.loseTxb then none else s.txb } with
    ⟨b, -, waits, e⟩ | ⟨-, e⟩ <;> rw [e]
  · refine ⟨.inr rfl, .inr (.inr ?_)⟩
    cases lost : d.loseTxb <;> simp_all
  · cases d.loseTsr <;> cases d.loseTxb <;> simp

/-- A `CTRLB` write likewise, whatever is drawn. -/
theorem writeCtrlB_latches (v : Byte) (s : State) :
    ((writeCtrlB v s).txb = s.txb ∨ (writeCtrlB v s).txb = none) ∧
    ((writeCtrlB v s).tsr = none ∨ (writeCtrlB v s).tsr.map TxFrame.byte = s.tsr.map TxFrame.byte ∨
      (writeCtrlB v s).tsr.map TxFrame.byte = s.txb) := by
  have stored : (storeCtrlB v s).tsr.map TxFrame.byte = s.tsr.map TxFrame.byte := by
    simp [storeCtrlB, Function.comp_def]
  rw [writeCtrlB_eq]
  obtain ⟨d, ds, n, e⟩ := disableLoss_cases (s.txen && !v.getLsbD 3) (s.rxen && !v.getLsbD 4) (storeCtrlB v s)
  obtain ⟨txb, tsr⟩ := loseTx_latches d { storeCtrlB v s with draws := ds, drawCount := n }
  have lost := And.intro txb (tsr.imp id (Or.imp (fun kept => (congrArg (Option.map TxFrame.byte) kept).trans stored) id))
  rw [e]
  cases s.txen && !v.getLsbD 3 <;> cases s.rxen && !v.getLsbD 4
  · exact ⟨.inl rfl, .inr (.inl stored)⟩
  · exact ⟨.inl rfl, .inr (.inl stored)⟩
  · exact lost
  · exact lost

/-- Settles O22. -/
theorem hostDisableAlwaysCompletes : Obligations.HostDisableAlwaysCompletes := by
  intro s main free
  obtain ⟨txb, tsr⟩ := writeCtrlB_latches 0x00#8 s
  exact ⟨_, exec_hostDisable_of_free main free, by simp, writeCtrlB_frame 0x00#8 s,
    (writeCtrlB_rxb 0x00#8 s).imp id fun ⟨_, _, lost⟩ => lost, txb, tsr⟩

/-! ## The eight steps of `INIT` (R146, R167, R293) -/

theorem runOps_cons {i : Instr} {rest : List Instr} {s t : State} (h : exec i s = .next t) :
    runOps (i :: rest) s = runOps rest t := by
  simp only [runOps, h]

/-- A property that each operation of a schedule keeps holds at its end. -/
theorem runOps_keeps {P : State → Prop} {ops : List Instr} {s t : State}
    (kept : ∀ i ∈ ops, ∀ u v, exec i u = .next v → P u → P v) (start : P s) (run : runOps ops s = .next t) : P t := by
  induction ops generalizing s with
  | nil => cases run; exact start
  | cons i rest ih =>
    cases outcome : exec i s with
    | next u =>
      rw [runOps_cons outcome] at run
      exact ih (fun j hj => kept j (List.mem_cons_of_mem i hj)) (kept i List.mem_cons_self s u outcome start) run
    | fault r => simp [runOps, outcome] at run
    | refused r => simp [runOps, outcome] at run

/-- A step of `INIT` before C7, in a state that still agrees with `s` where no configuration step writes. -/
theorem init_takes_step {s t : State} {baud : Word} {mode : Half} {k k' : ConfStep} {cfg : Cfg} (main : s.isr = none)
    (next : nextConfStep k = some k') (frame : ConfFrame s t) (at_k : t.host = some (.init k cfg)) :
    ∃ u, exec (.init baud mode) t = .next u ∧ u.host = some (.init k' cfg) ∧ ConfWrites k cfg t u ∧ ConfFrame s u := by
  obtain ⟨u, step, host, -, -, writes, frame'⟩ := initTakesItsSteps t baud mode k cfg (frame.2.1.trans main) at_k
  exact ⟨u, step, by rw [host, next]; rfl, writes, frame.trans frame'⟩

/-- Settles O19: step I0, then the seven steps, each of which writes its register and leaves the others. -/
theorem initOverwritesEveryConfigurationBit : Obligations.InitOverwritesEveryConfigurationBit := by
  intro s baud mode d ds main free sel
  obtain ⟨s0, start, host0, frame0⟩ : ∃ s0, exec (.init baud mode) s = .next s0 ∧
      s0.host = some (.init .c1 (cfgOf (BitVec.ofNat 32 d) ds mode (mode.getLsbD 4) (mode.getLsbD 3))) ∧ ConfFrame s s0 :=
    ⟨_, initStartsConfiguring s baud mode d ds main free sel, rfl, by simp [ConfFrame]⟩
  obtain ⟨s1, step1, host1, writes1, frame1⟩ := init_takes_step (baud := baud) (mode := mode) main rfl frame0 host0
  obtain ⟨s2, step2, host2, writes2, frame2⟩ := init_takes_step (baud := baud) (mode := mode) main rfl frame1 host1
  obtain ⟨s3, step3, host3, writes3, frame3⟩ := init_takes_step (baud := baud) (mode := mode) main rfl frame2 host2
  obtain ⟨s4, step4, host4, writes4, frame4⟩ := init_takes_step (baud := baud) (mode := mode) main rfl frame3 host3
  obtain ⟨s5, step5, host5, writes5, frame5⟩ := init_takes_step (baud := baud) (mode := mode) main rfl frame4 host4
  obtain ⟨s6, step6, host6, writes6, frame6⟩ := init_takes_step (baud := baud) (mode := mode) main rfl frame5 host5
  obtain ⟨t, step7, host7, phase7, result7, writes7, frame7⟩ :=
    initTakesItsSteps s6 baud mode .c7 _ (frame6.2.1.trans main) host6
  refine ⟨t, ?_, ?_, ?_, ?_, ?_, phase7, ?_, host7, result7, frame6.trans frame7⟩
  · simp only [List.replicate, runOps, start, step1, step2, step3, step4, step5, step6, step7]
  all_goals simp only [ConfWrites] at writes1 writes2 writes3 writes4 writes5 writes6 writes7
  · simp [writes3, writes4, writes5, writes6, writes7, writes2, cfgOf]
  · rw [writes7.1, writes6.1, imgB1Of_eq]
    rfl
  · simp [writes7, writes6, writes5, cfgOf]
  · simp [writes7, writes6, writes5, writes4, cfgOf]
  · exact writes7.2.2.2.2

/-- The latches hold nothing and ask for nothing. -/
def LatchesEmpty (s : State) : Prop := s.inHardware = [] ∧ s.rxb = none ∧ s.udreReq = false

theorem inHardware_eq_nil_iff {s : State} : s.inHardware = [] ↔ s.tsr = none ∧ s.txb = none := by
  simp [State.inHardware]

/-- A configuration step puts nothing into an empty latch. -/
theorem confEffect_latchesEmpty (k : ConfStep) (cfg : Cfg) {s : State} (h : LatchesEmpty s) :
    LatchesEmpty (confEffect k cfg s) := by
  obtain ⟨hardware, rxb, low⟩ := h
  refine ⟨List.sublist_nil.mp (hardware ▸ confEffect_inHardware k cfg s), ?_, ?_⟩
  · exact (confEffect_rxb k cfg s).elim (·.trans rxb) (·.2.2)
  · refine Bool.eq_false_iff.mpr fun high => ?_
    obtain ⟨-, b, -, waited⟩ := confEffect_raises_udreReq low high
    exact Option.some_ne_none b (waited.symm.trans (inHardware_eq_nil_iff.mp hardware).2)

/-- Nor does `INIT`, whatever step it takes. -/
theorem exec_init_latchesEmpty {baud : Word} {mode : Half} {s t : State} (h : exec (.init baud mode) s = .next t)
    (empty : LatchesEmpty s) : LatchesEmpty t := by
  simp only [exec, execInit] at h
  split at h
  · split at h
    · unfold initStart at h
      split at h <;> (rw [done_eq_next] at h; subst h; exact empty)
    · rw [initStep_eq, done_eq_next] at h
      subst h
      exact confEffect_latchesEmpty _ _ empty
    all_goals rw [blocked_eq_next] at h; subst h; exact empty
  · rw [blocked_eq_next] at h
    subst h
    exact empty

/-- Settles O20: the registers by O19, the empty latches by the steps' own lemma, the rest by the frame. -/
theorem initFromCleanStartIsEnabled : Obligations.InitFromCleanStartIsEnabled := by
  rintro s baud mode ⟨-, txc, -, -, -, txb, tsr, rxb, udreReq, -, -, host, isr, txq, rxq, txWritten, txLine, rxDropped, good⟩
    selects
  obtain ⟨⟨d, ds⟩, sel⟩ := Option.isSome_iff_exists.mp selects
  obtain ⟨t, run, ctrlC, ctrlB, u2x, baud', phase, hook, host', -, frame⟩ :=
    initOverwritesEveryConfigurationBit s baud mode d ds isr host sel
  obtain ⟨hardware', rxb', udreReq'⟩ : LatchesEmpty t := by
    refine runOps_keeps (fun i mem u v h empty => ?_) ⟨inHardware_eq_nil_iff.mpr ⟨tsr, txb⟩, rxb, udreReq⟩ run
    obtain rfl := List.eq_of_mem_replicate mem
    exact exec_init_latchesEmpty h empty
  obtain ⟨tsr', txb'⟩ := inHardware_eq_nil_iff.mp hardware'
  obtain ⟨txc', isr', txq', rxq', txWritten', txLine', rxDropped', fault', params', -⟩ := frame
  refine ⟨t, run, phase, hook, ⟨d, ds, by rw [params', sel], baud', u2x⟩, ctrlC, ctrlB, host', isr'.trans isr, txb', tsr', rxb',
    txc'.trans txc, udreReq', txq'.trans txq, rxq'.trans rxq, txWritten'.trans txWritten, txLine'.trans txLine,
    rxDropped'.trans rxDropped, fault'.trans good⟩

end Machine
end Sys2Proof
end

section
/-! PROOFS. What brings the pump to a queued byte (R194), move by move, and the byte pushed into an idle transmitter (R193,
R195), one handler run at a time. -/

namespace Sys2Proof
namespace Machine

/-! ## The pending drain (R194) -/

/-- What R194 lists: something that will bring the pump to the queue. -/
def DrainCause (s : State) : Prop :=
  s.txc = true ∨ s.udreReq = true ∨ s.tsr ≠ none ∨ s.isr = some .txc1 ∨ s.isr = some .udre1 ∨ heldTx s.isr ≠ []

/-- While no transmit handler has a byte or is about to pop one, the cause lies in the hardware. -/
theorem DrainCause.hardware {s : State} (cause : DrainCause s) (no_txc1 : s.isr ≠ some .txc1)
    (no_udre1 : s.isr ≠ some .udre1) (no_byte : heldTx s.isr = []) :
    s.txc = true ∨ s.udreReq = true ∨ s.tsr ≠ none := by
  rcases cause with txc | udre | tsr | at_p1 | at_p1 | held
  · exact .inl txc
  · exact .inr (.inl udre)
  · exact .inr (.inr tsr)
  · exact absurd at_p1 no_txc1
  · exact absurd at_p1 no_udre1
  · exact absurd no_byte held

/-- A step that names neither the hook, the host nor the queue carries the drain over if it carries the cause over. -/
theorem drainPending_of_cause {s t : State} (pending : s.DrainPending) (hook : t.hook = s.hook) (host : t.host = s.host)
    (queue : t.txq = s.txq) (carried : DrainCause s → DrainCause t) : t.DrainPending := by
  intro hooked elsewhere waits
  exact carried (pending (hook ▸ hooked) (host ▸ elsewhere) (queue ▸ waits))

/-- A handler that has nothing to do with the queue leaves the cause in the hardware. -/
theorem drainPending_of_hardware {s t : State} (pending : s.DrainPending) (idle : heldTx s.isr = [])
    (no_txc1 : s.isr ≠ some .txc1) (no_udre1 : s.isr ≠ some .udre1) (hook : t.hook = s.hook) (host : t.host = s.host)
    (queue : t.txq = s.txq) (txc : t.txc = s.txc) (udre : t.udreReq = s.udreReq) (tsr : t.tsr = s.tsr) :
    t.DrainPending := by
  refine drainPending_of_cause pending hook host queue fun cause => ?_
  rcases cause.hardware no_txc1 no_udre1 idle with h | h | h
  · exact .inl (txc.trans h)
  · exact .inr (.inl (udre.trans h))
  · exact .inr (.inr (.inl (tsr ▸ h)))

/-- A pop from a queue that stays nonempty has taken a byte. -/
theorem tryPop_fst_ne_none {q : List Byte} (waits : q ≠ []) : (tryPop q).1.toList ≠ [] := by
  cases q with
  | nil => exact absurd rfl waits
  | cons b rest => simp

/-- With `TXEN` 1 before and after it, a configuration step is C7: C1 turns the transmitter off, and it stays off up to
C6. -/
theorem eq_c7_of_txen {k : ConfStep} {cfg : Cfg} {s : State} (inv : s.Inv) (on : s.txen = true)
    (still_on : (confEffect k cfg s).txen = true)
    (at_k : ((s.host = none ∧ k = .c1) ∨ s.host = some (.configure k cfg)) ∨ s.host = some (.init k cfg)) : k = .c7 := by
  have window : betweenC1AndC6 k = true → hostDisabledWindow s.host = true := by
    rcases at_k with (⟨-, rfl⟩ | at_k) | at_k
    · exact nofun
    all_goals rw [at_k]; exact id
  have no_window : betweenC1AndC6 k ≠ true := fun inside => by
    have off : s.txcie = false := enable_of_off (inv.window_off (window inside)).2 .txc
    exact Bool.false_ne_true (off.symm.trans (inv.tx_enables.1.symm.trans on))
  cases k
  case c7 => rfl
  case c1 => simp [State.txen, confEffect_ctrlB] at still_on
  all_goals exact absurd rfl no_window

/-- The moves of the pump, the hardware, the pushes and the receive path keep the drain pending; so do those of a
configuration that leaves the transmitter on under a registered hook. -/
theorem Move.keeps_drainPending {i : Instr} {s t : State} (m : Move i s t)
    (who : (agentOf i ≠ .host ∨ (∃ b, i = .hostEnqueue b) ∨ i = .txkick ∨ i = .hostDequeue) ∨
      (s.hook = true ∧ s.txen = true ∧ t.txen = true))
    (no_reset : i ≠ .reset) (inv : s.Inv) (pending : s.DrainPending) : t.DrainPending := by
  cases m
  case reset => exact absurd rfl no_reset
  case configure k cfg _ main at_k =>
    obtain ⟨hooked, on, still_on⟩ := who.resolve_left (by simp [agentOf])
    obtain rfl := eq_c7_of_txen (k := k) inv on still_on (.inl at_k)
    exact fun _ _ => pending hooked (by simp [at_k.resolve_left])
  case initStep k cfg _ main at_k =>
    obtain ⟨hooked, on, still_on⟩ := who.resolve_left (by simp [agentOf])
    obtain rfl := eq_c7_of_txen (k := k) inv on still_on (.inr at_k)
    exact fun _ _ => pending hooked (by simp [at_k])
  case initStart div main free sel =>
    obtain ⟨hooked, -⟩ := who.resolve_left (by simp [agentOf])
    exact fun _ _ => pending hooked (by simp [free])
  case disable =>
    obtain ⟨-, -, still_on⟩ := who.resolve_left (by simp [agentOf])
    simp [State.txen] at still_on
  case push =>
    intro hooked elsewhere
    exact absurd (if_pos hooked) elsewhere
  case kick | txDoneIdle => exact fun _ _ _ => .inl rfl
  case enterTxc => exact fun _ _ _ => .inr (.inr (.inr (.inl rfl)))
  case enterUdre => exact fun _ _ _ => .inr (.inr (.inr (.inr (.inl rfl))))
  case popTxc | popUdre =>
    intro _ _ waits
    refine .inr (.inr (.inr (.inr (.inr (tryPop_fst_ne_none fun empty => waits ?_)))))
    simp [empty]
  case writeOverrun on full at_p2 => exact fun _ _ _ => .inr (.inr (.inl (inv.waits_behind full)))
  case writeIdle | txDoneNext => exact fun _ _ _ => .inr (.inr (.inl (Option.some_ne_none _)))
  case writeBehind fr on room busy at_p2 =>
    exact fun _ _ _ => .inr (.inr (.inl (busy ▸ Option.some_ne_none fr)))
  case enterRxc en =>
    have main := isr_of_entryEnabled en
    exact drainPending_of_hardware pending (by simp [main]) (by simp [main]) (by simp [main]) rfl rfl rfl rfl rfl rfl
  case pumpEmpty at_p2 =>
    have idle : heldTx s.isr = [] := at_p2.heldTx_eq
    obtain e | e := at_p2.isr_eq <;>
      exact drainPending_of_hardware pending idle (by simp [e]) (by simp [e]) rfl rfl rfl rfl rfl rfl
  case rxRead e _ | rxPush e _ | rxDrop e _ =>
    exact drainPending_of_hardware pending (by simp [e]) (by simp [e]) (by simp [e]) rfl rfl rfl rfl rfl rfl
  all_goals exact drainPending_of_cause pending rfl rfl rfl id

/-- Settles O37. -/
theorem drainStaysPending : Obligations.DrainStaysPending :=
  fun _ _ _ who inv pending h no_reset => (exec_move h).keeps_drainPending (.inl who) no_reset inv pending

/-! ## One byte (R193, R195) -/

/-- A schedule goes on where its first part ends. -/
theorem runOps_append {ops rest : List Instr} {s t : State} (h : runOps ops s = .next t) :
    runOps (ops ++ rest) s = runOps rest t := by
  induction ops generalizing s with
  | nil => cases h; rfl
  | cons i ops ih =>
    rw [List.cons_append]
    cases outcome : exec i s with
    | next u => rw [runOps_cons outcome] at h ⊢; exact ih h
    | fault r => simp [runOps, outcome] at h
    | refused r => simp [runOps, outcome] at h

/-- No source outranks the only one that requests. -/
theorem outranked_of_alone {s : State} {src : Source} (alone : ∀ k, k ≠ src → s.request k = false) :
    s.outranked src = false := by
  unfold State.outranked
  split
  · rfl
  · refine List.any_eq_false.mpr fun k _ => ?_
    by_cases same : k = src
    · simp [same]
    · simp [alone k same]

section
variable {s : State}

/-- A run of `ISR_TXC` that finds the queue empty: it clears its request and leaves the rest. -/
theorem runOps_isrTxc_of_empty (main : s.isr = none) (request : s.txc = true) (enable : s.txcie = true)
    (first : s.outranked .txc = false) (empty : s.txq = []) :
    runOps [.isrTxc, .pump, .pump] s = .next { s with txc := false, isr := none, result := .none } := by
  refine (runOps_cons (txcHandlerEntry s main request enable first)).trans ?_
  refine (runOps_cons (((pumpPopsOneByte { s with txc := false, isr := some .txc1, result := .none } .pump).1 ⟨rfl, .inl rfl⟩).2 empty)).trans ?_
  exact runOps_cons ((pumpWritesTheDataRegister _ .pump none (.inl ⟨rfl, .inl rfl⟩)).1 rfl)

/-- A run of `ISR_UDRE` that finds the queue empty, likewise. -/
theorem runOps_isrUdre_of_empty (main : s.isr = none) (request : s.udreReq = true) (enable : s.udrie = true)
    (first : s.outranked .udre = false) (empty : s.txq = []) :
    runOps [.isrUdre, .pump, .pump] s = .next { s with udreReq := false, isr := none, result := .none } := by
  refine (runOps_cons (udreHandlerEntry s main request enable first)).trans ?_
  refine (runOps_cons (((pumpPopsOneByte { s with udreReq := false, isr := some .udre1, result := .none } .pump).2 ⟨rfl, .inl rfl⟩).2 empty)).trans ?_
  exact runOps_cons ((pumpWritesTheDataRegister _ .pump none (.inr ⟨rfl, .inl rfl⟩)).1 rfl)

/-- A run of `ISR_TXC` over an idle transmitter sends the byte at the front of the queue. -/
theorem runOps_isrTxc_of_cons {b : Byte} {rest : List Byte} (main : s.isr = none) (request : s.txc = true)
    (enable : s.txcie = true) (first : s.outranked .txc = false) (front : s.txq = b :: rest) (on : s.txen = true)
    (room : s.txb = none) (idle : s.tsr = none) :
    runOps [.isrTxc, .pump, .pump] s = .next { s with
      txc := false, txq := rest, txWritten := s.txWritten ++ [b], udreReq := true
      tsr := some { byte := b, fmt := s.fmt, garbled := false }, isr := none, result := .none } := by
  refine (runOps_cons (txcHandlerEntry s main request enable first)).trans ?_
  refine (runOps_cons (((pumpPopsOneByte { s with txc := false, isr := some .txc1, result := .none } .pump).1 ⟨rfl, .inl rfl⟩).1 b rest front)).trans ?_
  exact runOps_cons (((pumpWritesTheDataRegister
    { s with txc := false, txq := rest, isr := some (.txc2 (some b)), result := .none } .pump (some b) (.inl ⟨rfl, .inl rfl⟩)).2.2 b rfl on).2.1 room idle)

/-- A push into a block with its hook, and its kick. -/
theorem runOps_push_kick (b : Byte) (main : s.isr = none) (free : s.host = none) (hooked : s.hook = true)
    (room : s.txq.length < s.params.txCap) :
    runOps [.hostEnqueue b, .txkick] s = .next { s with
      txq := s.txq ++ [b], txc := true, host := none, result := .ok } := by
  refine (runOps_cons ((enqueuePushes s b main).1 free room hooked)).trans ?_
  exact runOps_cons ((txkickSetsTxcOnly _).1 main rfl)

end

/-- The byte pushed and kicked. -/
def afterPush (s : State) (b : Byte) : State := { s with txq := s.txq ++ [b], txc := true, host := none, result := .ok }

/-- Then sent by the run of `ISR_TXC`. -/
def afterSend (s : State) (b : Byte) : State := { afterPush s b with
  txc := false, txq := [], txWritten := s.txWritten ++ [b], udreReq := true
  tsr := some { byte := b, fmt := s.fmt, garbled := false }, isr := none, result := .none }

/-- Then with the empty run of `ISR_UDRE` behind it. -/
def afterRest (s : State) (b : Byte) : State := { afterSend s b with udreReq := false, isr := none, result := .none }

/-- Then with its frame complete. -/
def afterFrame (s : State) (b : Byte) : State := { afterRest s b with
  txLine := s.txLine ++ [lineRecord { byte := b, fmt := s.fmt, garbled := false }], tsr := none, txc := true }

/-- Settles O38: push and kick, the run that sends the byte, the run that finds the queue empty, the end of the frame, and
another empty run; no two sources request at once, so the order of the sources does not matter. -/
theorem oneByteIsSentAndTheBlockRests : Obligations.OneByteIsSentAndTheBlockRests := by
  rintro s baud mode b ⟨-, hooked, -, -, ctrlB, host, isr, txb, tsr, rxb, txc, udreReq, txq, -, written, line, -, good⟩ on cap
  obtain ⟨-, b6, b5, -, b3, -, -⟩ :=
    imgB1Of_bits (encodeFrame mode).enableRx (encodeFrame mode).enableTx (encodeFrame mode).sz2
  rw [← ctrlB, on] at b6 b5 b3
  have room : s.txq.length < s.params.txCap := by rw [txq]; exact cap
  have no_rxc : s.request .rxc = false := by rw [State.request, State.rxc, rxb]; rfl
  have push : runOps [.hostEnqueue b, .txkick] s = .next (afterPush s b) := runOps_push_kick b isr host hooked room
  have send : runOps [.isrTxc, .pump, .pump] (afterPush s b) = .next (afterSend s b) :=
    runOps_isrTxc_of_cons (s := afterPush s b) isr rfl b6
      (outranked_of_alone fun
        | .rxc, _ => no_rxc
        | .udre, _ => udreReq
        | .txc, other => absurd rfl other)
      (by simp [afterPush, txq]) b3 txb tsr
  have rest : runOps [.isrUdre, .pump, .pump] (afterSend s b) = .next (afterRest s b) :=
    runOps_isrUdre_of_empty (s := afterSend s b) rfl rfl b5
      (outranked_of_alone fun
        | .rxc, _ => no_rxc
        | .txc, _ => rfl
        | .udre, other => absurd rfl other) rfl
  have frame : exec .hwTxDone (afterRest s b) = .next (afterFrame s b) := by
    rw [exec_hwTxDone_of_busy (s := afterRest s b) rfl, shiftOut_of_empty (s := { afterRest s b with txLine := _ }) txb]
    rfl
  have last : runOps [.isrTxc, .pump, .pump] (afterFrame s b) =
      .next { afterFrame s b with txc := false, isr := none, result := .none } :=
    runOps_isrTxc_of_empty (s := afterFrame s b) rfl rfl b6
      (outranked_of_alone fun
        | .rxc, _ => no_rxc
        | .udre, _ => rfl
        | .txc, other => absurd rfl other) rfl
  refine ⟨{ afterFrame s b with txc := false, isr := none, result := .none }, ?_, ⟨rfl, rfl, txb, rfl, fun src => ?_⟩, ?_, rfl, good, ?_⟩
  · exact (runOps_append push).trans ((runOps_append send).trans ((runOps_append rest).trans ((runOps_cons frame).trans last)))
  · cases src
    · exact (congrArg (· && _) no_rxc).trans (Bool.false_and _)
    · exact Bool.false_and _
    · exact Bool.false_and _
  · simp [afterFrame, afterRest, afterSend, written]
  · simp [afterFrame, line, lineRecord, Option.isNone_iff_eq_none]

end Machine
end Sys2Proof
end

section
/-! PROOFS. Fair runs (R251, R218, R219, R194): a handler's way out, the received byte's way to its queue, and why a
transmitter with a pending drain cannot stop writing. -/

namespace Sys2Proof
namespace Machine

/-! ## A handler's way out -/

/-- The positions at which a handler is entered. -/
def IsrProgress.isFirst : IsrProgress → Bool
  | .rxc1 | .udre1 | .txc1 => true
  | .rxc2 _ | .udre2 _ | .txc2 _ => false

section
variable {i : Instr} {s t : State} {p : IsrProgress}

/-- A handler that leaves its position has returned, or stood at its first position and stands at its second. -/
theorem isr_of_leaves (h : exec i s = .next t) (at_p : s.isr = some p) (left : t.isr ≠ some p) :
    t.isr = none ∨ (p.isFirst = true ∧ ∃ q, t.isr = some q ∧ q.isFirst = false) := by
  by_cases reset : i = .reset
  · subst reset
    obtain ⟨u, reset, rfl, -⟩ := resetGivesTheResetValues s
    cases reset.symm.trans h
    exact .inl rfl
  · obtain ⟨-, -, stays | ⟨rfl, r, second⟩ | ⟨rfl, r, second⟩ | ⟨rfl, b, second⟩ | ⟨main, -⟩⟩ :=
      noNestingAndTheHostWaits i s t p h at_p reset
    · exact absurd stays left
    · exact .inr ⟨rfl, _, second, rfl⟩
    · exact .inr ⟨rfl, _, second, rfl⟩
    · exact .inr ⟨rfl, _, second, rfl⟩
    · exact .inl main

/-- Only an operation that takes the handler's next step, or `RESET`, takes it from its position. -/
theorem Move.continues_of_leaves (m : Move i s t) (no_reset : i ≠ .reset) (at_p : s.isr = some p)
    (left : t.isr ≠ some p) : continuesHandler i p = true := by
  cases m
  case reset => exact absurd rfl no_reset
  case configure main _ | initStart main _ _ | initStep main _ | disable main _ | push main _ _ |
      kick main _ | dequeue main _ _ =>
    exact absurd (main.symm.trans at_p) (Option.some_ne_none p).symm
  case enterRxc en | enterUdre en | enterTxc en =>
    exact absurd ((isr_of_entryEnabled en).symm.trans at_p) (Option.some_ne_none p).symm
  case popTxc who at_p1 | popUdre who at_p1 =>
    obtain rfl := Option.some.inj (at_p1.symm.trans at_p)
    obtain rfl | rfl := who <;> rfl
  case pumpEmpty at_p2 | writeOverrun _ _ _ at_p2 | writeIdle _ _ _ _ at_p2 | writeBehind _ _ _ _ _ at_p2 =>
    obtain ⟨e, rfl | rfl⟩ | ⟨e, rfl | rfl⟩ := at_p2 <;> obtain rfl := Option.some.inj (e.symm.trans at_p) <;> rfl
  case rxRead at_x1 _ =>
    obtain rfl := Option.some.inj (at_x1.symm.trans at_p)
    rfl
  case rxPush at_x2 _ | rxDrop at_x2 _ =>
    obtain rfl := Option.some.inj (at_x2.symm.trans at_p)
    rfl
  all_goals exact absurd at_p left

/-- The receive handler is continued by its own operation only. -/
theorem eq_isrRxc_of_continues (rx : p = .rxc1 ∨ ∃ b, p = .rxc2 b) (own : continuesHandler i p = true) :
    i = .isrRxc := by
  cases i
  case isrRxc => rfl
  all_goals obtain rfl | ⟨b, rfl⟩ := rx <;> cases own

/-- An entry that happens is the interrupt taken. -/
theorem eq_takeInterrupt_of_entry {src : Source} (h : exec (handlerOf src) s = .next t)
    (en : s.entryEnabled src = true) : t = (takeInterrupt src s).ret .none := by
  rwa [exec_handlerOf src (isr_of_entryEnabled en), enterHandler, if_pos en, done_eq_next] at h

end

section
variable {sched : Nat → Instr} {σ : Nat → State} (run : IsRun sched σ)
include run

/-- R251 (b), R218: in a weakly fair run a handler returns, in at most two moves. -/
theorem handler_returns (fair : WeaklyFair sched σ) (n : Nat) : ∃ m, n ≤ m ∧ (σ m).isr = none := by
  have second : ∀ n q, (σ n).isr = some q → q.isFirst = false → ∃ m, n ≤ m ∧ (σ m).isr = none := by
    intro n q at_q late
    obtain ⟨m, hm, stays, left⟩ := handler_leaves run fair at_q
    obtain main | ⟨early, -⟩ := isr_of_leaves (run m) (stays m hm le_rfl) left
    · exact ⟨m + 1, by omega, main⟩
    · exact absurd (late.symm.trans early) Bool.false_ne_true
  rcases Option.eq_none_or_eq_some (σ n).isr with main | ⟨p, at_p⟩
  · exact ⟨n, le_rfl, main⟩
  · obtain ⟨m, hm, stays, left⟩ := handler_leaves run fair at_p
    obtain main | ⟨-, q, at_q, late⟩ := isr_of_leaves (run m) (stays m hm le_rfl) left
    · exact ⟨m + 1, by omega, main⟩
    · obtain ⟨m', hm', main⟩ := second (m + 1) q at_q late
      exact ⟨m', by omega, main⟩

end

/-! ## The received byte (R218, R219) -/

/-- A configuration step after which the receive interrupt is enabled has lost no received byte: C1 and C3 leave it off, and
C6 turns it on with the receiver. -/
theorem confEffect_rxb_of_rxcie {k : ConfStep} {cfg : Cfg} {s : State} (on : (confEffect k cfg s).rxcie = true) :
    (confEffect k cfg s).rxb = s.rxb := by
  have ctrlB := confEffect_ctrlB k cfg s
  cases k
  case c1 => simp [State.rxcie, ctrlB] at on
  case c3 => cases h : cfg.sz2 <;> simp [State.rxcie, ctrlB, imgB0Of_eq, h] at on
  case c6 =>
    have grouped : (confEffect .c6 cfg s).rxen = (confEffect .c6 cfg s).rxcie := by
      rw [State.rxen, State.rxcie, ctrlB]
      exact (imgB1Of_enablesGrouped _ _ _).2.1
    exact (confEffect_rxb .c6 cfg s).resolve_right fun ⟨_, off, _⟩ =>
      Bool.false_ne_true (off.symm.trans (grouped.trans on))
  all_goals simp [confEffect]

/-- While the receive interrupt stays enabled a byte leaves the input register by the handler's read only. -/
theorem Move.keeps_rxb_or_reads {i : Instr} {s t : State} {b : Byte} (m : Move i s t) (no_reset : i ≠ .reset)
    (there : s.rxb = some b) (on : t.rxcie = true) : t.rxb = some b ∨ t.isr = some (.rxc2 b) := by
  cases m
  case reset => exact absurd rfl no_reset
  case configure | initStep => exact .inl ((confEffect_rxb_of_rxcie on).trans there)
  case disable => exact .inl ((confEffect_rxb_of_rxcie (k := .c1) (cfg := cfgOf 0#32 false 0#16 false false) on).trans there)
  case rxTake b on room => exact absurd (room.symm.trans there) (Option.some_ne_none _).symm
  case rxRead b' at_x1 there' =>
    obtain rfl := Option.some.inj (there.symm.trans there')
    exact .inr rfl
  all_goals exact .inl there

/-- Leaving the position before the read is the read: the input register is empty after it. -/
theorem rxb_of_leaves_rxc1 {i : Instr} {s t : State} (h : exec i s = .next t) (no_reset : i ≠ .reset)
    (at_x1 : s.isr = some .rxc1) (left : t.isr ≠ some .rxc1) : t.rxb = none := by
  obtain rfl := eq_isrRxc_of_continues (.inl rfl) ((exec_move h).continues_of_leaves no_reset at_x1 left)
  obtain ⟨reads, refuses⟩ := rxcReadEmptiesTheInputRegister s at_x1
  rcases Option.eq_none_or_eq_some s.rxb with empty | ⟨b, there⟩
  · exact nomatch (refuses empty).symm.trans h
  · cases (reads b there).symm.trans h
    rfl

/-- Leaving the position before the push is the push, or on a full queue the counted drop. -/
theorem pushed_of_leaves_rxc2 {i : Instr} {s t : State} {b : Byte} (h : exec i s = .next t) (no_reset : i ≠ .reset)
    (at_x2 : s.isr = some (.rxc2 b)) (left : t.isr ≠ some (.rxc2 b)) :
    t.isr = none ∧ (s.rxq.length < s.params.rxCap → t.rxq = s.rxq ++ [b]) ∧
      (s.params.rxCap ≤ s.rxq.length → t.rxq = s.rxq ∧ t.rxDropped = s.rxDropped + 1) := by
  obtain rfl := eq_isrRxc_of_continues (.inr ⟨b, rfl⟩) ((exec_move h).continues_of_leaves no_reset at_x2 left)
  obtain ⟨pushes, drops⟩ := rxcPushOrSilentDrop s b at_x2
  rcases Nat.lt_or_ge s.rxq.length s.params.rxCap with room | full
  · cases (pushes room).symm.trans h
    exact ⟨rfl, fun _ => rfl, fun full => absurd room (Nat.not_lt.mpr full)⟩
  · cases (drops full).symm.trans h
    exact ⟨rfl, fun room => absurd room (Nat.not_lt.mpr full), fun _ => ⟨rfl, rfl⟩⟩

section
variable {sched : Nat → Instr} {σ : Nat → State} {n : Nat} {b : Byte} (run : IsRun sched σ) (fair : Fair sched σ)
  (no_reset : ∀ m, n ≤ m → sched m ≠ .reset) (on : ∀ m, n ≤ m → (σ m).rxcie = true)
include run fair no_reset on

/-- A byte does not stay in the input register for ever: the handler is entered and leaves it empty. -/
theorem rxb_not_always : ¬ ∀ m, n ≤ m → (σ m).rxb = some b := by
  intro always
  obtain ⟨m, hm, quiet | ⟨own, en⟩⟩ := fair.served n .rxc
  · have pending : ((σ m).request .rxc && (σ m).enable .rxc) = true := by
      rw [State.request, State.rxc, always m hm, State.enable, on m hm]
      rfl
    exact Bool.false_ne_true (quiet.symm.trans pending)
  · have entered : (σ (m + 1)).isr = some .rxc1 := by
      have next := run m
      rw [own] at next
      rw [eq_takeInterrupt_of_entry next en]
      rfl
    obtain ⟨k, hk, stays, left⟩ := handler_leaves run fair.weak entered
    have empty := rxb_of_leaves_rxc1 (run k) (no_reset k (by omega)) (stays k hk le_rfl) left
    exact Option.some_ne_none b ((always (k + 1) (by omega)).symm.trans empty)

/-- The byte stays in the input register up to the moment at which the handler reads it. -/
theorem rxb_is_read (there : (σ n).rxb = some b) :
    ∃ k, n ≤ k ∧ (∀ j, n ≤ j → j ≤ k → (σ j).rxb = some b) ∧ (σ (k + 1)).isr = some (.rxc2 b) := by
  by_contra never
  push Not at never
  have always : ∀ m, n ≤ m → ∀ j, n ≤ j → j ≤ m → (σ j).rxb = some b := by
    intro m hm
    induction m, hm using Nat.le_induction with
    | base => intro j hj hjn; rwa [Nat.le_antisymm hjn hj]
    | succ m hm ih =>
      intro j hj hjm
      rcases Nat.le_succ_iff.mp hjm with before | rfl
      · exact ih j hj before
      · exact ((exec_move (run m)).keeps_rxb_or_reads (no_reset m hm) (ih m hm le_rfl) (on _ hj)).resolve_right
          (never m hm ih)
  exact rxb_not_always run fair no_reset on fun m hm => always m hm m hm le_rfl

end

/-! ## The transmit path (R194) while the transmitter stays on -/

/-- While the transmitter stays on, the shift register empties only at the end of a frame, which sets `txc`. -/
theorem Move.keeps_tsr_or_sets_txc {i : Instr} {s t : State} (m : Move i s t) (no_reset : i ≠ .reset) (inv : s.Inv)
    (on : s.txen = true) (still_on : t.txen = true) (busy : s.tsr ≠ none) : t.tsr ≠ none ∨ t.txc = true := by
  cases m
  case reset => exact absurd rfl no_reset
  case configure k cfg _ main at_k =>
    obtain rfl := eq_c7_of_txen (k := k) inv on still_on (.inl at_k)
    exact .inl busy
  case initStep k cfg _ main at_k =>
    obtain rfl := eq_c7_of_txen (k := k) inv on still_on (.inr at_k)
    exact .inl busy
  case disable => simp [State.txen] at still_on
  case writeIdle | txDoneNext => exact .inl (Option.some_ne_none _)
  case txDoneIdle => exact .inr rfl
  all_goals exact .inl busy

/-- A transmit handler that holds a byte leaves its position by writing it. -/
theorem Move.writes_of_leaves {i : Instr} {s t : State} {b : Byte} (m : Move i s t) (no_reset : i ≠ .reset)
    (holds : heldTx s.isr = [b]) (left : t.isr ≠ s.isr) : t.txWritten = s.txWritten ++ [b] := by
  cases m
  case reset => exact absurd rfl no_reset
  case writeOverrun b' _ _ at_p2 | writeIdle b' _ _ _ at_p2 | writeBehind b' _ _ _ _ at_p2 =>
    obtain rfl : b' = b := by simpa [at_p2.heldTx_eq] using holds
    rfl
  case pumpEmpty at_p2 => simp [at_p2.heldTx_eq] at holds
  case enterRxc en | enterUdre en | enterTxc en => simp [isr_of_entryEnabled en] at holds
  case popTxc e | popUdre e | rxRead e _ | rxPush e _ | rxDrop e _ => simp [e] at holds
  case configure k cfg _ _ _ | initStep k cfg _ _ _ => exact absurd (confEffect_isr k cfg s) left
  case disable => exact absurd (writeCtrlB_isr 0#8 s) left
  all_goals exact absurd rfl left

/-- A transmit handler that stands before its pop leaves its position with a byte, if one is queued. -/
theorem Move.pops_of_leaves {i : Instr} {s t : State} (m : Move i s t) (no_reset : i ≠ .reset)
    (at_p1 : s.isr = some .txc1 ∨ s.isr = some .udre1) (waits : s.txq ≠ []) (left : t.isr ≠ s.isr) :
    heldTx t.isr ≠ [] := by
  cases m
  case reset => exact absurd rfl no_reset
  case popTxc | popUdre => exact tryPop_fst_ne_none waits
  case pumpEmpty at_p2 | writeOverrun _ _ _ at_p2 | writeIdle _ _ _ _ at_p2 | writeBehind _ _ _ _ _ at_p2 =>
    obtain e | e := at_p2.isr_eq <;> simp [e] at at_p1
  case enterRxc en | enterUdre en | enterTxc en => simp [isr_of_entryEnabled en] at at_p1
  case rxRead e _ | rxPush e _ | rxDrop e _ => simp [e] at at_p1
  case configure k cfg _ _ _ | initStep k cfg _ _ _ => exact absurd (confEffect_isr k cfg s) left
  case disable => exact absurd (writeCtrlB_isr 0#8 s) left
  all_goals exact absurd rfl left

/-- The end of a frame requests: `ISR_UDRE` if a byte waited behind it, else `ISR_TXC`. -/
theorem requests_of_txDone {s t : State} (h : exec .hwTxDone s = .next t) (busy : s.tsr ≠ none) :
    t.txc = true ∨ t.udreReq = true := by
  obtain ⟨fr, shifting⟩ := Option.ne_none_iff_exists'.mp busy
  obtain ⟨_, -, -, next, idle⟩ := txDoneCompletesTheFrame s fr shifting
  rcases Option.eq_none_or_eq_some s.txb with empty | ⟨b, waits⟩
  · cases (idle empty).symm.trans h
    exact .inl rfl
  · cases (next b waits).symm.trans h
    exact .inr rfl

/-- The second step of a push sets `txc`. -/
theorem txc_of_continues_enqueue2 {i : Instr} {s t : State} (h : exec i s = .next t) (main : s.isr = none)
    (pushed : s.host = some .enqueue2) (own : continuesHost i .enqueue2 = true) : t.txc = true := by
  cases i
  case hostEnqueue b =>
    cases ((enqueuePushes s b main).2.2.2 pushed).symm.trans h
    rfl
  case txkick =>
    cases ((txkickSetsTxcOnly s).1 main pushed).symm.trans h
    rfl
  all_goals cases own

/-! ## A transmitter that stops writing -/

/-- From moment `m` on the transmitter is on and meets the invariant, something of the transmit stream is not written, and
nothing more is. -/
structure Stalled (sched : Nat → Instr) (σ : Nat → State) (m : Nat) : Prop where
  run : IsRun sched σ
  fair : Fair sched σ
  no_reset : ∀ j, m ≤ j → sched j ≠ .reset
  on : ∀ j, m ≤ j → (σ j).txen = true
  inv : ∀ j, m ≤ j → (σ j).Inv
  silent : ∀ j, m ≤ j → (σ (j + 1)).txWritten = (σ j).txWritten
  unwritten : ∀ j, m ≤ j → (σ j).txWritten ≠ (σ j).txStream

namespace Stalled

variable {sched : Nat → Instr} {σ : Nat → State} {m : Nat} (st : Stalled sched σ m)
include st

/-- No transmit handler holds a byte: it would write it. -/
theorem heldTx_eq {j : Nat} (hj : m ≤ j) : heldTx (σ j).isr = [] := by
  match at_p : (σ j).isr with
  | none | some .rxc1 | some (.rxc2 _) | some .txc1 | some .udre1 | some (.txc2 none) | some (.udre2 none) => rfl
  | some (.txc2 (some b)) | some (.udre2 (some b)) =>
    obtain ⟨k, hk, stays, left⟩ := handler_leaves st.run st.fair.weak at_p
    have at_k := stays k hk le_rfl
    have written := (exec_move (st.run k)).writes_of_leaves (b := b) (st.no_reset k (by omega)) (by rw [at_k]; rfl)
      (by rwa [at_k])
    rw [st.silent k (by omega)] at written
    simp at written

/-- A byte is queued: it is the rest of the stream. -/
theorem waits {j : Nat} (hj : m ≤ j) : (σ j).txq ≠ [] := by
  intro empty
  refine st.unwritten j hj ?_
  rw [State.txStream, st.heldTx_eq hj, empty, List.append_nil, List.append_nil]

/-- No transmit handler stands before its pop: it would take the byte. -/
theorem not_before_pop {j : Nat} (hj : m ≤ j) {p : IsrProgress} (first : p = .txc1 ∨ p = .udre1) :
    (σ j).isr ≠ some p := by
  intro at_p
  obtain ⟨k, hk, stays, left⟩ := handler_leaves st.run st.fair.weak at_p
  have at_k := stays k hk le_rfl
  have popped := (exec_move (st.run k)).pops_of_leaves (st.no_reset k (by omega))
    (by rw [at_k]; exact first.imp (congrArg some) (congrArg some)) (st.waits (by omega)) (by rwa [at_k])
  exact popped (st.heldTx_eq (by omega))

/-- A transmit source does not request for ever: it would be served, and its handler stand before the pop. -/
theorem request_not_always {src : Source} (enabled : ∀ j, m ≤ j → (σ j).enable src = true) {first : IsrProgress}
    (handler : ∀ s, (takeInterrupt src s).isr = some first) (pops : first = .txc1 ∨ first = .udre1) {j : Nat}
    (hj : m ≤ j) : ¬ ∀ k, j ≤ k → (σ k).request src = true := by
  intro always
  obtain ⟨k, hk, quiet | ⟨own, en⟩⟩ := st.fair.served j src
  · rw [always k hk, enabled k (by omega)] at quiet
    exact Bool.false_ne_true quiet.symm
  · have next := st.run k
    rw [own] at next
    have entered : (σ (k + 1)).isr = some first := by
      rw [eq_takeInterrupt_of_entry next en]
      exact handler _
    exact st.not_before_pop (by omega) pops entered

/-- `ISR_TXC` is not requested: only its entry would end the request. -/
theorem txc_ne_true {j : Nat} (hj : m ≤ j) : (σ j).txc ≠ true := by
  intro requested
  refine st.request_not_always (src := .txc) (fun k hk => (st.inv k hk).tx_enables.1.symm.trans (st.on k hk))
    (fun _ => rfl) (.inl rfl) hj (run_keeps (P := fun s => s.txc = true) requested fun k hk high => ?_)
  by_contra low
  rcases (txcSetAndClearedOnlyAsListed _ _ _ (st.run k)).2 high (Bool.eq_false_iff.mpr low) with reset | ⟨-, -, entered⟩
  · exact st.no_reset k (by omega) reset
  · exact st.not_before_pop (by omega) (.inl rfl) entered

/-- `ISR_UDRE` is not requested: only its entry or a write would end the request. -/
theorem udreReq_ne_true {j : Nat} (hj : m ≤ j) : (σ j).udreReq ≠ true := by
  intro requested
  refine st.request_not_always (src := .udre)
    (fun k hk => ((st.inv k hk).tx_enables.1.trans (st.inv k hk).tx_enables.2).symm.trans (st.on k hk))
    (fun _ => rfl) (.inr rfl) hj (run_keeps (P := fun s => s.udreReq = true) requested fun k hk high => ?_)
  by_contra low
  rcases (udreRequestSetAndClearedOnlyAsListed _ _ _ (st.run k)).2 high (Bool.eq_false_iff.mpr low) with
    reset | ⟨-, -, entered⟩ | ⟨b, written⟩
  · exact st.no_reset k (by omega) reset
  · exact st.not_before_pop (by omega) (.inr rfl) entered
  · rw [st.silent k (by omega)] at written
    simp at written

/-- Nothing is shifting: the end of its frame would request a transmit handler. -/
theorem tsr_eq_none {j : Nat} (hj : m ≤ j) : (σ j).tsr = none := by
  by_contra busy
  have always : ∀ k, j ≤ k → (σ k).tsr ≠ none := run_keeps (P := fun s => s.tsr ≠ none) busy fun k hk busy =>
    ((exec_move (st.run k)).keeps_tsr_or_sets_txc (st.no_reset k (by omega)) (st.inv k (by omega)) (st.on k (by omega))
      (st.on (k + 1) (by omega)) busy).resolve_right (st.txc_ne_true (by omega))
  obtain ⟨k, hk, idle | frame⟩ := st.fair.weak.shifter j
  · exact always k hk idle
  · have next := st.run k
    rw [frame] at next
    rcases requests_of_txDone next (always k hk) with txc | udre
    · exact st.txc_ne_true (by omega) txc
    · exact st.udreReq_ne_true (by omega) udre

/-- The host does not stay between the push and the kick, which would request `ISR_TXC`. -/
theorem host_leaves_enqueue2 : ∃ j, m ≤ j ∧ (σ j).host ≠ some .enqueue2 := by
  by_cases pushed : (σ m).host = some .enqueue2
  · obtain ⟨j, hj, elsewhere | ⟨main, own⟩⟩ := st.fair.weak.host m _ pushed
    · exact ⟨j, hj, elsewhere⟩
    · refine ⟨j, hj, fun still => st.txc_ne_true (j := j + 1) (by omega) ?_⟩
      exact txc_of_continues_enqueue2 (st.run j) main still own
  · exact ⟨m, le_rfl, pushed⟩

/-- So the drain is not pending throughout. -/
theorem drain_not_pending (hooked : ∀ j, m ≤ j → (σ j).hook = true) : ¬ ∀ j, m ≤ j → (σ j).DrainPending := by
  intro pending
  obtain ⟨j, hj, elsewhere⟩ := st.host_leaves_enqueue2
  have cause : DrainCause (σ j) := pending j hj (hooked j hj) elsewhere (st.waits hj)
  rcases cause.hardware (st.not_before_pop hj (.inl rfl)) (st.not_before_pop hj (.inr rfl)) (st.heldTx_eq hj) with
    txc | udre | busy
  · exact st.txc_ne_true hj txc
  · exact st.udreReq_ne_true hj udre
  · exact busy (st.tsr_eq_none hj)

end Stalled

/-! ## Every byte on its way is written -/

section
variable {sched : Nat → Instr} {σ : Nat → State} {n : Nat} (run : IsRun sched σ)
  (no_reset : ∀ m, n ≤ m → sched m ≠ .reset)
include run no_reset

/-- `RESET` apart, the stream grows at its end only (R191). -/
theorem txStream_grows : ∀ m, n ≤ m → (σ n).txStream <+: (σ m).txStream :=
  run_keeps (P := fun s => (σ n).txStream <+: s.txStream) List.prefix_rfl fun m hm before => by
    rcases transmitStreamConserved _ _ _ (run m) (no_reset m hm) with same | ⟨b, -, -, -, grown⟩
    · rwa [same]
    · rw [grown]
      exact before.trans (List.prefix_append _ _)

/-- The log of writes does not get shorter. -/
theorem txWritten_length_mono {l : Nat} (start : l ≤ (σ n).txWritten.length) :
    ∀ m, n ≤ m → l ≤ (σ m).txWritten.length :=
  run_keeps (P := fun s => l ≤ s.txWritten.length) start fun m hm before => by
    rcases atMostOneByteWrittenPerStep _ _ _ (run m) (no_reset m hm) with same | ⟨b, -, -, grown⟩
    · rwa [same]
    · rw [grown, List.length_append]
      exact before.trans (Nat.le_add_right _ _)

/-- What the drain's premises keep while the transmitter stays on. -/
theorem drainPremises_later (inv : (σ n).Inv) (hooked : (σ n).hook = true) (pending : (σ n).DrainPending)
    (on : ∀ m, n ≤ m → (σ m).txen = true) :
    ∀ m, n ≤ m → (σ m).Inv ∧ (σ m).hook = true ∧ (σ m).DrainPending :=
  run_keeps (P := fun s => s.Inv ∧ s.hook = true ∧ s.DrainPending) ⟨inv, hooked, pending⟩
    fun m hm ⟨inv, hooked, pending⟩ => by
      have move := exec_move (run m)
      refine ⟨move.keeps_inv inv, ?_, move.keeps_drainPending (.inr ⟨hooked, on m hm, on (m + 1) (by omega)⟩)
        (no_reset m hm) inv pending⟩
      by_contra changed
      rcases hookSetByC7ClearedByReset _ _ _ (run m) (by rw [hooked]; exact changed) with ⟨-, reset⟩ | ⟨set, -⟩
      · exact no_reset m hm reset
      · exact changed set

/-- Any number of the stream's bytes is written at some moment: else the transmitter would be stalled at the last one. -/
theorem txWritten_reaches (fair : Fair sched σ) (inv : (σ n).Inv) (hooked : (σ n).hook = true)
    (pending : (σ n).DrainPending) (on : ∀ m, n ≤ m → (σ m).txen = true) :
    ∀ l, l ≤ (σ n).txStream.length → ∃ m, n ≤ m ∧ l ≤ (σ m).txWritten.length
  | 0, _ => ⟨n, le_rfl, Nat.zero_le _⟩
  | l + 1, hl => by
    obtain ⟨m, hm, reached⟩ := txWritten_reaches fair inv hooked pending on l (by omega)
    by_contra never
    push Not at never
    have kept := drainPremises_later run no_reset inv hooked pending on
    have length_eq : ∀ j, m ≤ j → (σ j).txWritten.length = l := fun j hj => by
      have := txWritten_length_mono run (n := m) (fun k hk => no_reset k (by omega)) reached j hj
      have := never j (by omega)
      omega
    have stalled : Stalled sched σ m :=
      { run, fair
        no_reset := fun j hj => no_reset j (by omega)
        on := fun j hj => on j (by omega)
        inv := fun j hj => (kept j (by omega)).1
        silent := fun j hj => ?_
        unwritten := fun j hj all => ?_ }
    · exact stalled.drain_not_pending (fun j hj => (kept j (by omega)).2.1) fun j hj => (kept j (by omega)).2.2
    · rcases atMostOneByteWrittenPerStep _ _ _ (run j) (no_reset j (by omega)) with same | ⟨b, -, -, grown⟩
      · exact same
      · have := congrArg List.length grown
        rw [List.length_append, length_eq j hj, length_eq (j + 1) (by omega)] at this
        simp at this
    · have := (txStream_grows run no_reset j (by omega)).length_le
      rw [← all, length_eq j hj] at this
      omega

end

/-- Settles O60: a handler returns; the input register's byte is read and pushed or dropped; the stream's bytes are written
one by one, and what is written of a longer stream begins with it. -/
theorem fairRunsMakeProgress : Obligations.FairRunsMakeProgress := by
  intro sched σ run
  refine ⟨handler_returns run, fun fair n no_reset => ⟨fun b there on => ?_, fun inv hooked pending on => ?_⟩⟩
  · obtain ⟨k, hk, stays, held⟩ := rxb_is_read run fair no_reset on there
    obtain ⟨m, hm, holds, left⟩ := handler_leaves run fair.weak held
    obtain ⟨main, pushed, dropped⟩ :=
      pushed_of_leaves_rxc2 (run m) (no_reset m (by omega)) (holds m hm le_rfl) left
    exact ⟨k, m, hk, hm, stays, fun j hj => holds j hj, main, pushed, dropped⟩
  · obtain ⟨m, hm, reached⟩ := txWritten_reaches run no_reset fair inv hooked pending on _ le_rfl
    have written : (σ m).txWritten <+: (σ m).txStream := by
      rw [State.txStream, List.append_assoc]
      exact List.prefix_append _ _
    exact ⟨m, hm, List.prefix_of_prefix_length_le (txStream_grows run no_reset m hm) written reached⟩

end Machine
end Sys2Proof
end
